-- ==== Sys2Proof/Word.lean ====
section
/-! DEFINITION. The two word types of the core (00_scope.md R6): a byte is what one bus transaction carries and what an
8-bit register view holds, a word is a register pair and a bus address. Arithmetic on them is that of `BitVec`,
which wraps modulo 256 and modulo 65536 (R10). -/
namespace Sys2Proof

/-- Eight bits: bus data, opcode, 8-bit register view (R6). -/
abbrev Byte := BitVec 8

/-- Sixteen bits: register pair, bus address (R6). -/
abbrev Word := BitVec 16

end Sys2Proof
end

