-- ==== Sys2Proof/Machine/Bytes.lean ====
section
/-! DEFINITION. Bit fields, byte order and extension (00_scope.md R10, R11; 20_memory.md R65): the two halves of a word, a word from
its halves, the signed extension of a displacement, a high-page address. -/
namespace Sys2Proof.Machine

/-- `v[15:8]` (10_state.md R24). -/
def hiByte (v : Word) : Byte := v.extractLsb' 8 8

/-- `v[7:0]` (10_state.md R24). -/
def loByte (v : Word) : Byte := v.extractLsb' 0 8

/-- `hi ++ lo`, the word `hi*256 + lo` (00_scope.md R10, 20_memory.md R64). -/
def joinBytes (hi lo : Byte) : Word := hi ++ lo

/-- `sext_16(e8)`: the signed displacement of `JR` (00_scope.md R11, 30_encoding.md R114). -/
def sext16 (e : Byte) : Word := e.signExtend 16

/-- `0xFF00 + n`: the high-page address of `LDH` (20_memory.md R79); it never carries out of 16 bits. -/
def highPage (n : Byte) : Word := joinBytes 0xFF n

end Sys2Proof.Machine
end

