-- ==== Sys2Proof/Syntax.lean ====
section
/-! DEFINITION. The instructions: one constructor per row of spec/opcode_table.json (177 rows, 30_encoding.md R104, R123), in the
table's order. Register operands are part of the constructor, as they are part of the row; an immediate is an argument of the
width of its field (R114): n16 a word, n8 and e8 a byte (e8 as the encoded byte, its sign is read where it is used). -/
namespace Sys2Proof

inductive Instr where
  /-- `LD BC,n16`: 01 nn nn (R200) -/
  | ldBcN16 (n : Word)
  /-- `LD [BC],A`: 02 (R172) -/
  | ldBcMemFromA
  /-- `INC BC`: 03 (R218) -/
  | incBc
  /-- `INC B`: 04 (R214) -/
  | incB
  /-- `LD B,n8`: 06 nn (R182) -/
  | ldBN8 (n : Byte)
  /-- `LD A,[BC]`: 0A (R175) -/
  | ldAFromBcMem
  /-- `INC C`: 0C (R214) -/
  | incC
  /-- `LD C,n8`: 0E nn (R182) -/
  | ldCN8 (n : Byte)
  /-- `LD DE,n16`: 11 nn nn (R200) -/
  | ldDeN16 (n : Word)
  /-- `LD [DE],A`: 12 (R172) -/
  | ldDeMemFromA
  /-- `INC DE`: 13 (R218) -/
  | incDe
  /-- `INC D`: 14 (R214) -/
  | incD
  /-- `LD D,n8`: 16 nn (R182) -/
  | ldDN8 (n : Byte)
  /-- `LD A,[DE]`: 1A (R175) -/
  | ldAFromDeMem
  /-- `INC E`: 1C (R214) -/
  | incE
  /-- `LD E,n8`: 1E nn (R182) -/
  | ldEN8 (n : Byte)
  /-- `JR NZ,e8`: 20 ee (R230) -/
  | jrNz (e : Byte)
  /-- `LD HL,n16`: 21 nn nn (R200) -/
  | ldHlN16 (n : Word)
  /-- `LD [HL+],A`: 22 (R173) -/
  | ldHlIncFromA
  /-- `INC HL`: 23 (R218) -/
  | incHl
  /-- `INC H`: 24 (R214) -/
  | incH
  /-- `LD H,n8`: 26 nn (R182) -/
  | ldHN8 (n : Byte)
  /-- `JR Z,e8`: 28 ee (R230) -/
  | jrZ (e : Byte)
  /-- `LD A,[HL+]`: 2A (R176) -/
  | ldAFromHlInc
  /-- `INC L`: 2C (R214) -/
  | incL
  /-- `LD L,n8`: 2E nn (R182) -/
  | ldLN8 (n : Byte)
  /-- `JR NC,e8`: 30 ee (R230) -/
  | jrNc (e : Byte)
  /-- `LD SP,n16`: 31 nn nn (R200) -/
  | ldSpN16 (n : Word)
  /-- `LD [HL-],A`: 32 (R174) -/
  | ldHlDecFromA
  /-- `INC SP`: 33 (R218) -/
  | incSp
  /-- `INC [HL]`: 34 (R215) -/
  | incHlMem
  /-- `LD [HL],n8`: 36 nn (R183) -/
  | ldHlMemN8 (n : Byte)
  /-- `JR C,e8`: 38 ee (R230) -/
  | jrC (e : Byte)
  /-- `LD A,[HL-]`: 3A (R177) -/
  | ldAFromHlDec
  /-- `INC A`: 3C (R214) -/
  | incA
  /-- `LD A,n8`: 3E nn (R182) -/
  | ldAN8 (n : Byte)
  /-- `LD B,B`: 40 (R179) -/
  | ldBFromB
  /-- `LD B,C`: 41 (R179) -/
  | ldBFromC
  /-- `LD B,D`: 42 (R179) -/
  | ldBFromD
  /-- `LD B,E`: 43 (R179) -/
  | ldBFromE
  /-- `LD B,H`: 44 (R179) -/
  | ldBFromH
  /-- `LD B,L`: 45 (R179) -/
  | ldBFromL
  /-- `LD B,[HL]`: 46 (R180) -/
  | ldBFromHlMem
  /-- `LD B,A`: 47 (R179) -/
  | ldBFromA
  /-- `LD C,B`: 48 (R179) -/
  | ldCFromB
  /-- `LD C,C`: 49 (R179) -/
  | ldCFromC
  /-- `LD C,D`: 4A (R179) -/
  | ldCFromD
  /-- `LD C,E`: 4B (R179) -/
  | ldCFromE
  /-- `LD C,H`: 4C (R179) -/
  | ldCFromH
  /-- `LD C,L`: 4D (R179) -/
  | ldCFromL
  /-- `LD C,[HL]`: 4E (R180) -/
  | ldCFromHlMem
  /-- `LD C,A`: 4F (R179) -/
  | ldCFromA
  /-- `LD D,B`: 50 (R179) -/
  | ldDFromB
  /-- `LD D,C`: 51 (R179) -/
  | ldDFromC
  /-- `LD D,D`: 52 (R179) -/
  | ldDFromD
  /-- `LD D,E`: 53 (R179) -/
  | ldDFromE
  /-- `LD D,H`: 54 (R179) -/
  | ldDFromH
  /-- `LD D,L`: 55 (R179) -/
  | ldDFromL
  /-- `LD D,[HL]`: 56 (R180) -/
  | ldDFromHlMem
  /-- `LD D,A`: 57 (R179) -/
  | ldDFromA
  /-- `LD E,B`: 58 (R179) -/
  | ldEFromB
  /-- `LD E,C`: 59 (R179) -/
  | ldEFromC
  /-- `LD E,D`: 5A (R179) -/
  | ldEFromD
  /-- `LD E,E`: 5B (R179) -/
  | ldEFromE
  /-- `LD E,H`: 5C (R179) -/
  | ldEFromH
  /-- `LD E,L`: 5D (R179) -/
  | ldEFromL
  /-- `LD E,[HL]`: 5E (R180) -/
  | ldEFromHlMem
  /-- `LD E,A`: 5F (R179) -/
  | ldEFromA
  /-- `LD H,B`: 60 (R179) -/
  | ldHFromB
  /-- `LD H,C`: 61 (R179) -/
  | ldHFromC
  /-- `LD H,D`: 62 (R179) -/
  | ldHFromD
  /-- `LD H,E`: 63 (R179) -/
  | ldHFromE
  /-- `LD H,H`: 64 (R179) -/
  | ldHFromH
  /-- `LD H,L`: 65 (R179) -/
  | ldHFromL
  /-- `LD H,[HL]`: 66 (R180) -/
  | ldHFromHlMem
  /-- `LD H,A`: 67 (R179) -/
  | ldHFromA
  /-- `LD L,B`: 68 (R179) -/
  | ldLFromB
  /-- `LD L,C`: 69 (R179) -/
  | ldLFromC
  /-- `LD L,D`: 6A (R179) -/
  | ldLFromD
  /-- `LD L,E`: 6B (R179) -/
  | ldLFromE
  /-- `LD L,H`: 6C (R179) -/
  | ldLFromH
  /-- `LD L,L`: 6D (R179) -/
  | ldLFromL
  /-- `LD L,[HL]`: 6E (R180) -/
  | ldLFromHlMem
  /-- `LD L,A`: 6F (R179) -/
  | ldLFromA
  /-- `LD [HL],B`: 70 (R181) -/
  | ldHlMemFromB
  /-- `LD [HL],C`: 71 (R181) -/
  | ldHlMemFromC
  /-- `LD [HL],D`: 72 (R181) -/
  | ldHlMemFromD
  /-- `LD [HL],E`: 73 (R181) -/
  | ldHlMemFromE
  /-- `LD [HL],H`: 74 (R181) -/
  | ldHlMemFromH
  /-- `LD [HL],L`: 75 (R181) -/
  | ldHlMemFromL
  /-- `LD [HL],A`: 77 (R181) -/
  | ldHlMemFromA
  /-- `LD A,B`: 78 (R179) -/
  | ldAFromB
  /-- `LD A,C`: 79 (R179) -/
  | ldAFromC
  /-- `LD A,D`: 7A (R179) -/
  | ldAFromD
  /-- `LD A,E`: 7B (R179) -/
  | ldAFromE
  /-- `LD A,H`: 7C (R179) -/
  | ldAFromH
  /-- `LD A,L`: 7D (R179) -/
  | ldAFromL
  /-- `LD A,[HL]`: 7E (R180) -/
  | ldAFromHlMem
  /-- `LD A,A`: 7F (R179) -/
  | ldAFromA
  /-- `XOR A,B`: A8 (R210) -/
  | xorB
  /-- `XOR A,C`: A9 (R210) -/
  | xorC
  /-- `XOR A,D`: AA (R210) -/
  | xorD
  /-- `XOR A,E`: AB (R210) -/
  | xorE
  /-- `XOR A,H`: AC (R210) -/
  | xorH
  /-- `XOR A,L`: AD (R210) -/
  | xorL
  /-- `XOR A,[HL]`: AE (R211) -/
  | xorHlMem
  /-- `XOR A,A`: AF (R210) -/
  | xorA
  /-- `PUSH BC`: C5 (R201) -/
  | pushBc
  /-- `PUSH DE`: D5 (R201) -/
  | pushDe
  /-- `LDH [n8],A`: E0 nn (R184) -/
  | ldhN8FromA (n : Byte)
  /-- `LDH [C],A`: E2 (R185) -/
  | ldhCFromA
  /-- `PUSH HL`: E5 (R201) -/
  | pushHl
  /-- `PUSH AF`: F5 (R201) -/
  | pushAf
  /-- `BIT 0,B`: CB 40 (R240) -/
  | bit0B
  /-- `BIT 0,C`: CB 41 (R240) -/
  | bit0C
  /-- `BIT 0,D`: CB 42 (R240) -/
  | bit0D
  /-- `BIT 0,E`: CB 43 (R240) -/
  | bit0E
  /-- `BIT 0,H`: CB 44 (R240) -/
  | bit0H
  /-- `BIT 0,L`: CB 45 (R240) -/
  | bit0L
  /-- `BIT 0,[HL]`: CB 46 (R241) -/
  | bit0HlMem
  /-- `BIT 0,A`: CB 47 (R240) -/
  | bit0A
  /-- `BIT 1,B`: CB 48 (R240) -/
  | bit1B
  /-- `BIT 1,C`: CB 49 (R240) -/
  | bit1C
  /-- `BIT 1,D`: CB 4A (R240) -/
  | bit1D
  /-- `BIT 1,E`: CB 4B (R240) -/
  | bit1E
  /-- `BIT 1,H`: CB 4C (R240) -/
  | bit1H
  /-- `BIT 1,L`: CB 4D (R240) -/
  | bit1L
  /-- `BIT 1,[HL]`: CB 4E (R241) -/
  | bit1HlMem
  /-- `BIT 1,A`: CB 4F (R240) -/
  | bit1A
  /-- `BIT 2,B`: CB 50 (R240) -/
  | bit2B
  /-- `BIT 2,C`: CB 51 (R240) -/
  | bit2C
  /-- `BIT 2,D`: CB 52 (R240) -/
  | bit2D
  /-- `BIT 2,E`: CB 53 (R240) -/
  | bit2E
  /-- `BIT 2,H`: CB 54 (R240) -/
  | bit2H
  /-- `BIT 2,L`: CB 55 (R240) -/
  | bit2L
  /-- `BIT 2,[HL]`: CB 56 (R241) -/
  | bit2HlMem
  /-- `BIT 2,A`: CB 57 (R240) -/
  | bit2A
  /-- `BIT 3,B`: CB 58 (R240) -/
  | bit3B
  /-- `BIT 3,C`: CB 59 (R240) -/
  | bit3C
  /-- `BIT 3,D`: CB 5A (R240) -/
  | bit3D
  /-- `BIT 3,E`: CB 5B (R240) -/
  | bit3E
  /-- `BIT 3,H`: CB 5C (R240) -/
  | bit3H
  /-- `BIT 3,L`: CB 5D (R240) -/
  | bit3L
  /-- `BIT 3,[HL]`: CB 5E (R241) -/
  | bit3HlMem
  /-- `BIT 3,A`: CB 5F (R240) -/
  | bit3A
  /-- `BIT 4,B`: CB 60 (R240) -/
  | bit4B
  /-- `BIT 4,C`: CB 61 (R240) -/
  | bit4C
  /-- `BIT 4,D`: CB 62 (R240) -/
  | bit4D
  /-- `BIT 4,E`: CB 63 (R240) -/
  | bit4E
  /-- `BIT 4,H`: CB 64 (R240) -/
  | bit4H
  /-- `BIT 4,L`: CB 65 (R240) -/
  | bit4L
  /-- `BIT 4,[HL]`: CB 66 (R241) -/
  | bit4HlMem
  /-- `BIT 4,A`: CB 67 (R240) -/
  | bit4A
  /-- `BIT 5,B`: CB 68 (R240) -/
  | bit5B
  /-- `BIT 5,C`: CB 69 (R240) -/
  | bit5C
  /-- `BIT 5,D`: CB 6A (R240) -/
  | bit5D
  /-- `BIT 5,E`: CB 6B (R240) -/
  | bit5E
  /-- `BIT 5,H`: CB 6C (R240) -/
  | bit5H
  /-- `BIT 5,L`: CB 6D (R240) -/
  | bit5L
  /-- `BIT 5,[HL]`: CB 6E (R241) -/
  | bit5HlMem
  /-- `BIT 5,A`: CB 6F (R240) -/
  | bit5A
  /-- `BIT 6,B`: CB 70 (R240) -/
  | bit6B
  /-- `BIT 6,C`: CB 71 (R240) -/
  | bit6C
  /-- `BIT 6,D`: CB 72 (R240) -/
  | bit6D
  /-- `BIT 6,E`: CB 73 (R240) -/
  | bit6E
  /-- `BIT 6,H`: CB 74 (R240) -/
  | bit6H
  /-- `BIT 6,L`: CB 75 (R240) -/
  | bit6L
  /-- `BIT 6,[HL]`: CB 76 (R241) -/
  | bit6HlMem
  /-- `BIT 6,A`: CB 77 (R240) -/
  | bit6A
  /-- `BIT 7,B`: CB 78 (R240) -/
  | bit7B
  /-- `BIT 7,C`: CB 79 (R240) -/
  | bit7C
  /-- `BIT 7,D`: CB 7A (R240) -/
  | bit7D
  /-- `BIT 7,E`: CB 7B (R240) -/
  | bit7E
  /-- `BIT 7,H`: CB 7C (R240) -/
  | bit7H
  /-- `BIT 7,L`: CB 7D (R240) -/
  | bit7L
  /-- `BIT 7,[HL]`: CB 7E (R241) -/
  | bit7HlMem
  /-- `BIT 7,A`: CB 7F (R240) -/
  | bit7A
deriving DecidableEq, Repr

end Sys2Proof
end

