-- ==== Sys2Proof/Syntax/Fields.lean ====
section
/-! DEFINITION. The names the opcode byte's fields select: register names (10_state.md R20, R23), the r16 selector tables
(30_encoding.md R113), the 8-bit operand slot (R110), the condition (R112), the bit number (R114), and the 13 instruction
families with the fields each leaves free (R104). Every selector is a closed type with one constructor per field value,
so no selector is ever out of range (60_exceptions.md R263). -/
namespace Sys2Proof

/-- The six 16-bit words of the register file (R20). -/
inductive Reg16 where
  | bc | de | hl | af | sp | pc
deriving DecidableEq, Repr

/-- The eight 8-bit names (R23). -/
inductive Reg8 where
  | b | c | d | e | h | l | a | f
deriving DecidableEq, Repr

/-- The seven registers an operand slot can name: slot values 0 to 5 and 7 (R110). F is not among them. -/
inductive SlotReg where
  | b | c | d | e | h | l | a
deriving DecidableEq, Repr

/-- The 8-bit operand slot (R110): a register, or the memory byte at HL (slot value 6). -/
inductive Slot where
  | reg (r : SlotReg)
  | mem
deriving DecidableEq, Repr

/-- The r16 selector of `LD r16,n16` and `INC r16` (R113, first table). -/
inductive PairSel where
  | bc | de | hl | sp
deriving DecidableEq, Repr

/-- The r16 selector of `LD [r16(±)],A` and `LD A,[r16(±)]` (R113, second table). -/
inductive MemSel where
  | bc | de | hlInc | hlDec
deriving DecidableEq, Repr

/-- The r16 selector of `PUSH r16` (R113, third table). -/
inductive StackSel where
  | bc | de | hl | af
deriving DecidableEq, Repr

/-- The condition of `JR cc,e8` (R112). -/
inductive Cond where
  | nz | z | nc | c
deriving DecidableEq, Repr

/-- The bit number n3 of `BIT n3,r/m8` (R114). -/
inductive BitNum where
  | n0 | n1 | n2 | n3 | n4 | n5 | n6 | n7
deriving DecidableEq, Repr

/-- The 13 instruction families of R104, in the source's order, each with the fields its mask leaves free (R111, R113). -/
inductive Family where
  /-- 1: `00pp0001`, LD r16,n16 -/
  | ldPairImm (p : PairSel)
  /-- 2: `00pp0010`, LD [r16(±)],A -/
  | ldMemA (p : MemSel)
  /-- 3: `00pp1010`, LD A,[r16(±)] -/
  | ldAMem (p : MemSel)
  /-- 4: `10101zzz`, XOR A,r/m8 -/
  | xor (z : Slot)
  /-- 5: `01yyyzzz` except 0x76, LD r/m8,r/m8 -/
  | ldSlotSlot (y z : Slot)
  /-- 6: `11100000`, LD [0xFF00+n8],A -/
  | ldhImmA
  /-- 7: `11100010`, LDH [C],A -/
  | ldhCA
  /-- 8: `00yyy110`, LD r/m8,n8 -/
  | ldSlotImm (y : Slot)
  /-- 9: `00yyy100`, INC r/m8 -/
  | incSlot (y : Slot)
  /-- 10: `00pp0011`, INC r16 -/
  | incPair (p : PairSel)
  /-- 11: `001cc000`, JR cc,e8 (pattern corrected by R105) -/
  | jr (cc : Cond)
  /-- 12: `11pp0101`, PUSH r16 -/
  | push (p : StackSel)
  /-- 13: prefixed, `01yyyzzz`, BIT n3,r/m8 -/
  | bit (n : BitNum) (z : Slot)
deriving DecidableEq, Repr

end Sys2Proof
end

