-- ==== Sys2Proof/Config.lean ====
section
/-! DEFINITION. What an instance of the core fixes from outside (00_scope.md R7), and the free values. `BOOT_IMAGE` is an
argument of construction whose type is here (Machine/State.lean, `State.construct`) and then data in memory, `INC8_FLAGS` is a field of the state whose type is here;
`PERIPH_READ` and `INT_REQ` are free: constants with no body, of which nothing can be proved. -/
namespace Sys2Proof

/-- `BOOT_IMAGE` (R7): one byte for each of 0 to 255, no more and no fewer (70_reset_and_hazards.md R292). -/
abbrev BootImage := Vector Byte 256

/-- The image of 256 bytes 0x00 (log entry 3). -/
def BootImage.erased : BootImage := Vector.replicate 256 0x00

/-- The parameter `INC8_FLAGS` (R7, R213): does `INC r/m8` write Z, N and H, or leave F alone? -/
inductive Inc8Flags where
  | znh
  | unchanged
deriving DecidableEq, Repr

/-- One event of the bus history (20_memory.md R62, R63): a byte read or a byte written, with its address. -/
inductive BusEvent where
  | read (addr : Word) (value : Byte)
  | write (addr : Word) (value : Byte)
deriving DecidableEq, Repr

/-- `PERIPH_READ(history, address)` (R7, R74): the byte a device register reads as, any byte.
FREE VALUE, log entry 6. The history is given newest event first (log entry 8). -/
opaque Config.periphRead : List BusEvent → Word → Byte

/-- `INT_REQ` (R7, R270): the platform's `(IE & IF) != 0` in one M-cycle, either bit.
FREE VALUE, log entry 5. It may depend on the bus history and on the number of M-cycles performed. -/
opaque Config.intReq : List BusEvent → Nat → Bool

end Sys2Proof
end

