-- ==== Sys2Proof/WellFormed.lean ====
section
/-! DEFINITION. What is well formed. An instruction's operands are of the width of their fields by their types, and its registers are
part of its constructor, so every term of `Instr` is an instruction (60_exceptions.md R263); what can be ill formed is the
construction argument, the boot image (70_reset_and_hazards.md R292). -/
namespace Sys2Proof

/-- Every instruction is well formed: an immediate outside its field (30_encoding.md R114) cannot be written. -/
def Instr.wf (_ : Instr) : Bool := true

/-- "Bus takes a 256-byte boot image (exact length required; shorter/longer input is a caller error)" (R292). -/
def BootImage.wf (bytes : List Byte) : Bool := bytes.length == 256

/-- The boot image of a byte list supplied from outside: none for a list of another length, "a caller error" (R292). -/
def BootImage.ofBytes? (bytes : List Byte) : Option BootImage :=
  if h : BootImage.wf bytes = true then some ⟨bytes.toArray, by simpa [BootImage.wf] using h⟩ else none

end Sys2Proof
end

