-- ==== Sys2Proof/Decode.lean ====
section
/-! DEFINITION. Decoding and encoding. Bytes are decoded as 30_encoding.md says: a first byte 0xCB is the prefix escape (R103, R118);
otherwise the opcode byte is held against the mask-and-compare patterns of R104 in their order, its free fields are read as R101
and R110 to R113 say, and the immediates follow in ascending order (R100, R114). A byte no pattern takes is rejected by name
(R115). The encoder is written apart from that, row by row from opcode_table.json's `match` column. -/
namespace Sys2Proof

open Machine (hiByte loByte joinBytes)

/-! ## Fields of the opcode byte -/

/-- Bits 5:4 as the selector of `LD r16,n16` and `INC r16` (R113). -/
def pairSel (b : Byte) : PairSel :=
  match b.getLsbD 5, b.getLsbD 4 with
  | false, false => .bc
  | false, true => .de
  | true, false => .hl
  | true, true => .sp

/-- Bits 5:4 as the selector of the `[r16(±)]` forms (R113). -/
def memSel (b : Byte) : MemSel :=
  match b.getLsbD 5, b.getLsbD 4 with
  | false, false => .bc
  | false, true => .de
  | true, false => .hlInc
  | true, true => .hlDec

/-- Bits 5:4 as the selector of `PUSH r16` (R113). -/
def stackSel (b : Byte) : StackSel :=
  match b.getLsbD 5, b.getLsbD 4 with
  | false, false => .bc
  | false, true => .de
  | true, false => .hl
  | true, true => .af

/-- Bits 4:3 as the condition of `JR cc,e8` (R112). -/
def condSel (b : Byte) : Cond :=
  match b.getLsbD 4, b.getLsbD 3 with
  | false, false => .nz
  | false, true => .z
  | true, false => .nc
  | true, true => .c

/-- A three-bit field as an operand slot (R110), most significant bit first. -/
def slotOfBits : Bool → Bool → Bool → Slot
  | false, false, false => .reg .b
  | false, false, true => .reg .c
  | false, true, false => .reg .d
  | false, true, true => .reg .e
  | true, false, false => .reg .h
  | true, false, true => .reg .l
  | true, true, false => .mem
  | true, true, true => .reg .a

/-- Field `y`, bits 5:3, as a slot (R101, R111). -/
def slotY (b : Byte) : Slot := slotOfBits (b.getLsbD 5) (b.getLsbD 4) (b.getLsbD 3)

/-- Field `z`, bits 2:0, as a slot (R101, R111). -/
def slotZ (b : Byte) : Slot := slotOfBits (b.getLsbD 2) (b.getLsbD 1) (b.getLsbD 0)

/-- Bits 5:3 as the bit number n3 (R114). -/
def bitNum (b : Byte) : BitNum :=
  match b.getLsbD 5, b.getLsbD 4, b.getLsbD 3 with
  | false, false, false => .n0
  | false, false, true => .n1
  | false, true, false => .n2
  | false, true, true => .n3
  | true, false, false => .n4
  | true, false, true => .n5
  | true, true, false => .n6
  | true, true, true => .n7

/-! ## Families -/

/-- One row of the family table (R104): the opcode is taken when `opcode & mask = value` and it is not the excluded byte. -/
structure Pattern where
  mask : Byte
  value : Byte
  excluded : Option Byte
  family : Byte → Family

/-- The mask-and-compare test of one row (R102). -/
def Pattern.takes (p : Pattern) (b : Byte) : Bool := b &&& p.mask == p.value && p.excluded != some b

/-- The twelve unprefixed rows of R104, in priority order, row 11 as R105 corrects it. -/
def unprefixedPatterns : List Pattern :=
  [ ⟨0xCF, 0x01, none, fun b => .ldPairImm (pairSel b)⟩,
    ⟨0xCF, 0x02, none, fun b => .ldMemA (memSel b)⟩,
    ⟨0xCF, 0x0A, none, fun b => .ldAMem (memSel b)⟩,
    ⟨0xF8, 0xA8, none, fun b => .xor (slotZ b)⟩,
    ⟨0xC0, 0x40, some 0x76, fun b => .ldSlotSlot (slotY b) (slotZ b)⟩,
    ⟨0xFF, 0xE0, none, fun _ => .ldhImmA⟩,
    ⟨0xFF, 0xE2, none, fun _ => .ldhCA⟩,
    ⟨0xC7, 0x06, none, fun b => .ldSlotImm (slotY b)⟩,
    ⟨0xC7, 0x04, none, fun b => .incSlot (slotY b)⟩,
    ⟨0xCF, 0x03, none, fun b => .incPair (pairSel b)⟩,
    ⟨0xE7, 0x20, none, fun b => .jr (condSel b)⟩,
    ⟨0xCF, 0xC5, none, fun b => .push (stackSel b)⟩ ]

/-- The one prefixed row of R104. -/
def prefixedPatterns : List Pattern :=
  [ ⟨0xC0, 0x40, none, fun b => .bit (bitNum b) (slotZ b)⟩ ]

/-- The family of (PFX, OPC): the first pattern that takes the byte (R102, R104), none for an unimplemented byte (R115). -/
def familyOf (prefixed : Bool) (b : Byte) : Option Family :=
  ((if prefixed then prefixedPatterns else unprefixedPatterns).find? (·.takes b)).map (·.family b)

/-- How many immediate bytes follow the opcode byte (R100, format column of R104). -/
def Family.immBytes : Family → Nat
  | .ldPairImm _ => 2
  | .ldhImmA => 1
  | .ldSlotImm _ => 1
  | .jr _ => 1
  | .ldMemA _ => 0
  | .ldAMem _ => 0
  | .xor _ => 0
  | .ldSlotSlot _ _ => 0
  | .ldhCA => 0
  | .incSlot _ => 0
  | .incPair _ => 0
  | .push _ => 0
  | .bit _ _ => 0

/-! ## The instruction a family's fields and immediates make -/

/-- `LD r16,n16`, four rows. -/
def Form.ldPairImm : PairSel → Word → Instr
  | .bc, n => .ldBcN16 n
  | .de, n => .ldDeN16 n
  | .hl, n => .ldHlN16 n
  | .sp, n => .ldSpN16 n

/-- `LD [BC],A`, `LD [DE],A`, `LD [HL+],A`, `LD [HL-],A`. -/
def Form.storeA : MemSel → Instr
  | .bc => .ldBcMemFromA
  | .de => .ldDeMemFromA
  | .hlInc => .ldHlIncFromA
  | .hlDec => .ldHlDecFromA

/-- `LD A,[BC]`, `LD A,[DE]`, `LD A,[HL+]`, `LD A,[HL-]`. -/
def Form.loadA : MemSel → Instr
  | .bc => .ldAFromBcMem
  | .de => .ldAFromDeMem
  | .hlInc => .ldAFromHlInc
  | .hlDec => .ldAFromHlDec

/-- `XOR A,r8`, seven rows. -/
def Form.xorReg : SlotReg → Instr
  | .b => .xorB
  | .c => .xorC
  | .d => .xorD
  | .e => .xorE
  | .h => .xorH
  | .l => .xorL
  | .a => .xorA

/-- `LD r8,r8'`, 49 rows, destination first. -/
def Form.copyReg : SlotReg → SlotReg → Instr
  | .b, .b => .ldBFromB
  | .b, .c => .ldBFromC
  | .b, .d => .ldBFromD
  | .b, .e => .ldBFromE
  | .b, .h => .ldBFromH
  | .b, .l => .ldBFromL
  | .b, .a => .ldBFromA
  | .c, .b => .ldCFromB
  | .c, .c => .ldCFromC
  | .c, .d => .ldCFromD
  | .c, .e => .ldCFromE
  | .c, .h => .ldCFromH
  | .c, .l => .ldCFromL
  | .c, .a => .ldCFromA
  | .d, .b => .ldDFromB
  | .d, .c => .ldDFromC
  | .d, .d => .ldDFromD
  | .d, .e => .ldDFromE
  | .d, .h => .ldDFromH
  | .d, .l => .ldDFromL
  | .d, .a => .ldDFromA
  | .e, .b => .ldEFromB
  | .e, .c => .ldEFromC
  | .e, .d => .ldEFromD
  | .e, .e => .ldEFromE
  | .e, .h => .ldEFromH
  | .e, .l => .ldEFromL
  | .e, .a => .ldEFromA
  | .h, .b => .ldHFromB
  | .h, .c => .ldHFromC
  | .h, .d => .ldHFromD
  | .h, .e => .ldHFromE
  | .h, .h => .ldHFromH
  | .h, .l => .ldHFromL
  | .h, .a => .ldHFromA
  | .l, .b => .ldLFromB
  | .l, .c => .ldLFromC
  | .l, .d => .ldLFromD
  | .l, .e => .ldLFromE
  | .l, .h => .ldLFromH
  | .l, .l => .ldLFromL
  | .l, .a => .ldLFromA
  | .a, .b => .ldAFromB
  | .a, .c => .ldAFromC
  | .a, .d => .ldAFromD
  | .a, .e => .ldAFromE
  | .a, .h => .ldAFromH
  | .a, .l => .ldAFromL
  | .a, .a => .ldAFromA

/-- `LD r8,[HL]`, seven rows. -/
def Form.loadReg : SlotReg → Instr
  | .b => .ldBFromHlMem
  | .c => .ldCFromHlMem
  | .d => .ldDFromHlMem
  | .e => .ldEFromHlMem
  | .h => .ldHFromHlMem
  | .l => .ldLFromHlMem
  | .a => .ldAFromHlMem

/-- `LD [HL],r8`, seven rows. -/
def Form.storeReg : SlotReg → Instr
  | .b => .ldHlMemFromB
  | .c => .ldHlMemFromC
  | .d => .ldHlMemFromD
  | .e => .ldHlMemFromE
  | .h => .ldHlMemFromH
  | .l => .ldHlMemFromL
  | .a => .ldHlMemFromA

/-- `LD r8,n8`, seven rows. -/
def Form.immReg : SlotReg → Byte → Instr
  | .b, n => .ldBN8 n
  | .c, n => .ldCN8 n
  | .d, n => .ldDN8 n
  | .e, n => .ldEN8 n
  | .h, n => .ldHN8 n
  | .l, n => .ldLN8 n
  | .a, n => .ldAN8 n

/-- `INC r8`, seven rows. -/
def Form.incReg : SlotReg → Instr
  | .b => .incB
  | .c => .incC
  | .d => .incD
  | .e => .incE
  | .h => .incH
  | .l => .incL
  | .a => .incA

/-- `INC r16`, four rows. -/
def Form.incPair : PairSel → Instr
  | .bc => .incBc
  | .de => .incDe
  | .hl => .incHl
  | .sp => .incSp

/-- `JR cc,e8`, four rows. -/
def Form.jr : Cond → Byte → Instr
  | .nz, e => .jrNz e
  | .z, e => .jrZ e
  | .nc, e => .jrNc e
  | .c, e => .jrC e

/-- `PUSH r16`, four rows. -/
def Form.push : StackSel → Instr
  | .bc => .pushBc
  | .de => .pushDe
  | .hl => .pushHl
  | .af => .pushAf

/-- `BIT n3,r8`, 56 rows. -/
def Form.bitReg : BitNum → SlotReg → Instr
  | .n0, .b => .bit0B
  | .n0, .c => .bit0C
  | .n0, .d => .bit0D
  | .n0, .e => .bit0E
  | .n0, .h => .bit0H
  | .n0, .l => .bit0L
  | .n0, .a => .bit0A
  | .n1, .b => .bit1B
  | .n1, .c => .bit1C
  | .n1, .d => .bit1D
  | .n1, .e => .bit1E
  | .n1, .h => .bit1H
  | .n1, .l => .bit1L
  | .n1, .a => .bit1A
  | .n2, .b => .bit2B
  | .n2, .c => .bit2C
  | .n2, .d => .bit2D
  | .n2, .e => .bit2E
  | .n2, .h => .bit2H
  | .n2, .l => .bit2L
  | .n2, .a => .bit2A
  | .n3, .b => .bit3B
  | .n3, .c => .bit3C
  | .n3, .d => .bit3D
  | .n3, .e => .bit3E
  | .n3, .h => .bit3H
  | .n3, .l => .bit3L
  | .n3, .a => .bit3A
  | .n4, .b => .bit4B
  | .n4, .c => .bit4C
  | .n4, .d => .bit4D
  | .n4, .e => .bit4E
  | .n4, .h => .bit4H
  | .n4, .l => .bit4L
  | .n4, .a => .bit4A
  | .n5, .b => .bit5B
  | .n5, .c => .bit5C
  | .n5, .d => .bit5D
  | .n5, .e => .bit5E
  | .n5, .h => .bit5H
  | .n5, .l => .bit5L
  | .n5, .a => .bit5A
  | .n6, .b => .bit6B
  | .n6, .c => .bit6C
  | .n6, .d => .bit6D
  | .n6, .e => .bit6E
  | .n6, .h => .bit6H
  | .n6, .l => .bit6L
  | .n6, .a => .bit6A
  | .n7, .b => .bit7B
  | .n7, .c => .bit7C
  | .n7, .d => .bit7D
  | .n7, .e => .bit7E
  | .n7, .h => .bit7H
  | .n7, .l => .bit7L
  | .n7, .a => .bit7A

/-- `BIT n3,[HL]`, eight rows. -/
def Form.bitMem : BitNum → Instr
  | .n0 => .bit0HlMem
  | .n1 => .bit1HlMem
  | .n2 => .bit2HlMem
  | .n3 => .bit3HlMem
  | .n4 => .bit4HlMem
  | .n5 => .bit5HlMem
  | .n6 => .bit6HlMem
  | .n7 => .bit7HlMem

/-- The instruction of a family whose immediate bytes are `lo` (n8, e8 or n16[7:0]) and `hi` (n16[15:8]); a family without
immediates ignores them. The one pair of slots that is no instruction, `[HL]` to `[HL]`, has none (R116). -/
def instrOf : Family → Byte → Byte → Option Instr
  | .ldPairImm p, lo, hi => some (Form.ldPairImm p (joinBytes hi lo))
  | .ldMemA p, _, _ => some (Form.storeA p)
  | .ldAMem p, _, _ => some (Form.loadA p)
  | .xor (.reg r), _, _ => some (Form.xorReg r)
  | .xor .mem, _, _ => some .xorHlMem
  | .ldSlotSlot (.reg dst) (.reg r), _, _ => some (Form.copyReg dst r)
  | .ldSlotSlot (.reg dst) .mem, _, _ => some (Form.loadReg dst)
  | .ldSlotSlot .mem (.reg r), _, _ => some (Form.storeReg r)
  | .ldSlotSlot .mem .mem, _, _ => none
  | .ldhImmA, lo, _ => some (.ldhN8FromA lo)
  | .ldhCA, _, _ => some .ldhCFromA
  | .ldSlotImm (.reg dst), lo, _ => some (Form.immReg dst lo)
  | .ldSlotImm .mem, lo, _ => some (.ldHlMemN8 lo)
  | .incSlot (.reg r), _, _ => some (Form.incReg r)
  | .incSlot .mem, _, _ => some .incHlMem
  | .incPair p, _, _ => some (Form.incPair p)
  | .jr cc, lo, _ => some (Form.jr cc lo)
  | .push p, _, _ => some (Form.push p)
  | .bit n (.reg r), _, _ => some (Form.bitReg n r)
  | .bit n .mem, _, _ => some (Form.bitMem n)

/-! ## Decoding bytes -/

/-- Why bytes are no instruction. -/
inductive DecodeError where
  /-- The byte matches no family (R115): the fault `UnimplementedOpcode` names the same two things. -/
  | unimplementedOpcode (opcode : Byte) (prefixed : Bool)
  /-- The list ends before the instruction does. -/
  | truncated
deriving DecidableEq, Repr

/-- The instruction of opcode byte `b` in the table `prefixed` selects, its immediates taken from `rest` (R114). -/
def decodeOpcode (prefixed : Bool) (b : Byte) (rest : List Byte) : Except DecodeError (Instr × List Byte) :=
  match familyOf prefixed b with
  | none => .error (.unimplementedOpcode b prefixed)
  | some f =>
    match f.immBytes, rest with
    | 0, rest => finish f 0 0 rest
    | 1, n :: rest => finish f n 0 rest
    | 2, lo :: hi :: rest => finish f lo hi rest
    | _, _ => .error .truncated
where
  /-- The instruction, or the rejection of the one slot pair that is none. -/
  finish (f : Family) (lo hi : Byte) (rest : List Byte) : Except DecodeError (Instr × List Byte) :=
    match instrOf f lo hi with
    | some i => .ok (i, rest)
    | none => .error (.unimplementedOpcode b prefixed)

/-- The first instruction of a byte list and the bytes after it (R100, R118). -/
def decode : List Byte → Except DecodeError (Instr × List Byte)
  | [] => .error .truncated
  | b :: rest =>
    if b = 0xCB then
      match rest with
      | [] => .error .truncated
      | b2 :: rest2 => decodeOpcode true b2 rest2
    else decodeOpcode false b rest

/-! ## Encoding -/

/-- The bytes of an instruction in address order, from the rows of opcode_table.json (R123); n16 low byte first (R114). -/
def encode : Instr → List Byte
  | .ldBcN16 n => [0x01, loByte n, hiByte n]
  | .ldBcMemFromA => [0x02]
  | .incBc => [0x03]
  | .incB => [0x04]
  | .ldBN8 n => [0x06, n]
  | .ldAFromBcMem => [0x0A]
  | .incC => [0x0C]
  | .ldCN8 n => [0x0E, n]
  | .ldDeN16 n => [0x11, loByte n, hiByte n]
  | .ldDeMemFromA => [0x12]
  | .incDe => [0x13]
  | .incD => [0x14]
  | .ldDN8 n => [0x16, n]
  | .ldAFromDeMem => [0x1A]
  | .incE => [0x1C]
  | .ldEN8 n => [0x1E, n]
  | .jrNz e => [0x20, e]
  | .ldHlN16 n => [0x21, loByte n, hiByte n]
  | .ldHlIncFromA => [0x22]
  | .incHl => [0x23]
  | .incH => [0x24]
  | .ldHN8 n => [0x26, n]
  | .jrZ e => [0x28, e]
  | .ldAFromHlInc => [0x2A]
  | .incL => [0x2C]
  | .ldLN8 n => [0x2E, n]
  | .jrNc e => [0x30, e]
  | .ldSpN16 n => [0x31, loByte n, hiByte n]
  | .ldHlDecFromA => [0x32]
  | .incSp => [0x33]
  | .incHlMem => [0x34]
  | .ldHlMemN8 n => [0x36, n]
  | .jrC e => [0x38, e]
  | .ldAFromHlDec => [0x3A]
  | .incA => [0x3C]
  | .ldAN8 n => [0x3E, n]
  | .ldBFromB => [0x40]
  | .ldBFromC => [0x41]
  | .ldBFromD => [0x42]
  | .ldBFromE => [0x43]
  | .ldBFromH => [0x44]
  | .ldBFromL => [0x45]
  | .ldBFromHlMem => [0x46]
  | .ldBFromA => [0x47]
  | .ldCFromB => [0x48]
  | .ldCFromC => [0x49]
  | .ldCFromD => [0x4A]
  | .ldCFromE => [0x4B]
  | .ldCFromH => [0x4C]
  | .ldCFromL => [0x4D]
  | .ldCFromHlMem => [0x4E]
  | .ldCFromA => [0x4F]
  | .ldDFromB => [0x50]
  | .ldDFromC => [0x51]
  | .ldDFromD => [0x52]
  | .ldDFromE => [0x53]
  | .ldDFromH => [0x54]
  | .ldDFromL => [0x55]
  | .ldDFromHlMem => [0x56]
  | .ldDFromA => [0x57]
  | .ldEFromB => [0x58]
  | .ldEFromC => [0x59]
  | .ldEFromD => [0x5A]
  | .ldEFromE => [0x5B]
  | .ldEFromH => [0x5C]
  | .ldEFromL => [0x5D]
  | .ldEFromHlMem => [0x5E]
  | .ldEFromA => [0x5F]
  | .ldHFromB => [0x60]
  | .ldHFromC => [0x61]
  | .ldHFromD => [0x62]
  | .ldHFromE => [0x63]
  | .ldHFromH => [0x64]
  | .ldHFromL => [0x65]
  | .ldHFromHlMem => [0x66]
  | .ldHFromA => [0x67]
  | .ldLFromB => [0x68]
  | .ldLFromC => [0x69]
  | .ldLFromD => [0x6A]
  | .ldLFromE => [0x6B]
  | .ldLFromH => [0x6C]
  | .ldLFromL => [0x6D]
  | .ldLFromHlMem => [0x6E]
  | .ldLFromA => [0x6F]
  | .ldHlMemFromB => [0x70]
  | .ldHlMemFromC => [0x71]
  | .ldHlMemFromD => [0x72]
  | .ldHlMemFromE => [0x73]
  | .ldHlMemFromH => [0x74]
  | .ldHlMemFromL => [0x75]
  | .ldHlMemFromA => [0x77]
  | .ldAFromB => [0x78]
  | .ldAFromC => [0x79]
  | .ldAFromD => [0x7A]
  | .ldAFromE => [0x7B]
  | .ldAFromH => [0x7C]
  | .ldAFromL => [0x7D]
  | .ldAFromHlMem => [0x7E]
  | .ldAFromA => [0x7F]
  | .xorB => [0xA8]
  | .xorC => [0xA9]
  | .xorD => [0xAA]
  | .xorE => [0xAB]
  | .xorH => [0xAC]
  | .xorL => [0xAD]
  | .xorHlMem => [0xAE]
  | .xorA => [0xAF]
  | .pushBc => [0xC5]
  | .pushDe => [0xD5]
  | .ldhN8FromA n => [0xE0, n]
  | .ldhCFromA => [0xE2]
  | .pushHl => [0xE5]
  | .pushAf => [0xF5]
  | .bit0B => [0xCB, 0x40]
  | .bit0C => [0xCB, 0x41]
  | .bit0D => [0xCB, 0x42]
  | .bit0E => [0xCB, 0x43]
  | .bit0H => [0xCB, 0x44]
  | .bit0L => [0xCB, 0x45]
  | .bit0HlMem => [0xCB, 0x46]
  | .bit0A => [0xCB, 0x47]
  | .bit1B => [0xCB, 0x48]
  | .bit1C => [0xCB, 0x49]
  | .bit1D => [0xCB, 0x4A]
  | .bit1E => [0xCB, 0x4B]
  | .bit1H => [0xCB, 0x4C]
  | .bit1L => [0xCB, 0x4D]
  | .bit1HlMem => [0xCB, 0x4E]
  | .bit1A => [0xCB, 0x4F]
  | .bit2B => [0xCB, 0x50]
  | .bit2C => [0xCB, 0x51]
  | .bit2D => [0xCB, 0x52]
  | .bit2E => [0xCB, 0x53]
  | .bit2H => [0xCB, 0x54]
  | .bit2L => [0xCB, 0x55]
  | .bit2HlMem => [0xCB, 0x56]
  | .bit2A => [0xCB, 0x57]
  | .bit3B => [0xCB, 0x58]
  | .bit3C => [0xCB, 0x59]
  | .bit3D => [0xCB, 0x5A]
  | .bit3E => [0xCB, 0x5B]
  | .bit3H => [0xCB, 0x5C]
  | .bit3L => [0xCB, 0x5D]
  | .bit3HlMem => [0xCB, 0x5E]
  | .bit3A => [0xCB, 0x5F]
  | .bit4B => [0xCB, 0x60]
  | .bit4C => [0xCB, 0x61]
  | .bit4D => [0xCB, 0x62]
  | .bit4E => [0xCB, 0x63]
  | .bit4H => [0xCB, 0x64]
  | .bit4L => [0xCB, 0x65]
  | .bit4HlMem => [0xCB, 0x66]
  | .bit4A => [0xCB, 0x67]
  | .bit5B => [0xCB, 0x68]
  | .bit5C => [0xCB, 0x69]
  | .bit5D => [0xCB, 0x6A]
  | .bit5E => [0xCB, 0x6B]
  | .bit5H => [0xCB, 0x6C]
  | .bit5L => [0xCB, 0x6D]
  | .bit5HlMem => [0xCB, 0x6E]
  | .bit5A => [0xCB, 0x6F]
  | .bit6B => [0xCB, 0x70]
  | .bit6C => [0xCB, 0x71]
  | .bit6D => [0xCB, 0x72]
  | .bit6E => [0xCB, 0x73]
  | .bit6H => [0xCB, 0x74]
  | .bit6L => [0xCB, 0x75]
  | .bit6HlMem => [0xCB, 0x76]
  | .bit6A => [0xCB, 0x77]
  | .bit7B => [0xCB, 0x78]
  | .bit7C => [0xCB, 0x79]
  | .bit7D => [0xCB, 0x7A]
  | .bit7E => [0xCB, 0x7B]
  | .bit7H => [0xCB, 0x7C]
  | .bit7L => [0xCB, 0x7D]
  | .bit7HlMem => [0xCB, 0x7E]
  | .bit7A => [0xCB, 0x7F]

/-- The length in bytes (R100). -/
def Instr.length (i : Instr) : Nat := (encode i).length

/-! ## Words as spec/opcode_table.json numbers them -/

/-- The bytes, in address order, of an instruction word in the opcode table's numbering, three of them (the longest instruction).
The first byte is bits 7..0, the second bits 15..8, the third bits 23..16; but a prefixed row's `match` puts the first byte HIGH
(R123: `(first byte << 8 | second byte)`), so a 16-bit word whose high byte is 0xCB and whose low byte is a prefixed opcode is
read that way. No unprefixed two-byte instruction starts with 0x40 to 0x7F, so the two readings never meet (log entry 14). -/
def tableWordBytes (nbits w : Nat) : List Byte :=
  let w := w % 2 ^ nbits
  if nbits = 16 ∧ w / 256 = 0xCB ∧ 0x40 ≤ w % 256 ∧ w % 256 < 0x80 then
    [0xCB, BitVec.ofNat 8 w, 0]
  else
    [BitVec.ofNat 8 w, BitVec.ofNat 8 (w / 256), BitVec.ofNat 8 (w / 65536)]

/-- The instruction the decoder reads from the word `w` of `nbits` bits, the bits above being zero. -/
def decodeTableWord (nbits w : Nat) : Option Instr :=
  match decode (tableWordBytes nbits w) with
  | .ok (i, _) => some i
  | .error _ => none

end Sys2Proof
end

