-- ==== Sys2Proof/Machine/MemoryMap.lean ====
section
/-! DEFINITION. The address map of the bus (20_memory.md R69) and its complement, the unmapped addresses (R77). -/
namespace Sys2Proof.Machine

/-- Who owns an address (R69). -/
inductive Region where
  | bootRom
  | vram
  | workRam
  | oam
  | joypad
  | audio
  | graphicsControl
  | highRam
  | interruptEnable
deriving DecidableEq, Repr

/-- One row of the region table: the range `first` to `last`, both inclusive, and its owner. -/
structure RegionRow where
  first : Nat
  last : Nat
  owner : Region
deriving DecidableEq, Repr

/-- The region table (R69), row by row. -/
def regionTable : List RegionRow :=
  [ ⟨0x0000, 0x00FF, .bootRom⟩,
    ⟨0x8000, 0x9FFF, .vram⟩,
    ⟨0xC000, 0xDFFF, .workRam⟩,
    ⟨0xFE00, 0xFE9F, .oam⟩,
    ⟨0xFF00, 0xFF00, .joypad⟩,
    ⟨0xFF10, 0xFF3F, .audio⟩,
    ⟨0xFF40, 0xFF4B, .graphicsControl⟩,
    ⟨0xFF80, 0xFFFE, .highRam⟩,
    ⟨0xFFFF, 0xFFFF, .interruptEnable⟩ ]

/-- Does a row hold an address? -/
def RegionRow.holds (r : RegionRow) (a : Nat) : Bool := r.first ≤ a && a ≤ r.last

/-- The region of an address; none is an unmapped address (R77). -/
def regionAt (a : Nat) : Option Region := (regionTable.find? (·.holds a)).map (·.owner)

/-- The region of a bus address. -/
def regionOf (a : Word) : Option Region := regionAt a.toNat

/-- A device range: reads are draws, writes have no effect on the core (R74). The others are storage (R70, R72, R73, R76). -/
def Region.isDevice : Region → Bool
  | .joypad => true
  | .audio => true
  | .graphicsControl => true
  | .bootRom => false
  | .vram => false
  | .workRam => false
  | .oam => false
  | .highRam => false
  | .interruptEnable => false

/-- The addresses whose byte is held in the memory list: every storage region, the boot ROM among them. -/
def isStorage (a : Nat) : Bool :=
  match regionAt a with
  | some r => !r.isDevice
  | none => false

/-- An address a bus read answers (R62): any mapped one. -/
abbrev Readable (a : Word) : Prop := regionOf a ≠ none

/-- An address a bus write takes (R63): mapped, and not in the boot ROM. -/
abbrev Writable (a : Word) : Prop := regionOf a ≠ none ∧ regionOf a ≠ some .bootRom

end Sys2Proof.Machine
end

