-- ==== Sys2Proof/Machine/Memory.lean ====
section
/-! DEFINITION. The storage of the bus as plain data: a list of address and byte pairs in one canonical form, addresses strictly
rising and no entry equal to what an unlisted address reads as, so that equal memories are equal lists. It covers the
whole 16-bit address space (20_memory.md R60); which addresses are storage is Machine/MemoryMap.lean's. -/
namespace Sys2Proof.Machine

/-- The storage bytes, listed by address. -/
abbrev Memory := List Host.Cell

/-- What an address with no entry reads as: "zero-fill" (20_memory.md R72, R73, R76, R78). For the boot ROM, whose content the spec
leaves to the construction argument, it is the erased image (log entry 3). -/
def Memory.unlisted : Byte := 0x00

/-- The byte at an address. -/
def Memory.read (m : Memory) (a : Nat) : Byte :=
  match m with
  | [] => Memory.unlisted
  | c :: m => if c.1 = a then c.2 else Memory.read m a

/-- The list without the entry of an address. -/
def Memory.erase (m : Memory) (a : Nat) : Memory := m.filter (fun c => c.1 ≠ a)

/-- The list with an entry put before the first higher address. -/
def Memory.insert (m : Memory) (a : Nat) (v : Byte) : Memory :=
  match m with
  | [] => [(a, v)]
  | c :: m => if a < c.1 then (a, v) :: c :: m else c :: Memory.insert m a v

/-- The memory with byte `v` at address `a`; writing what an unlisted address reads as removes the entry. -/
def Memory.write (m : Memory) (a : Nat) (v : Byte) : Memory :=
  if v = Memory.unlisted then m.erase a else (m.erase a).insert a v

/-- The canonical form. -/
abbrev Memory.wf (m : Memory) : Prop :=
  m.Pairwise (fun c c' => c.1 < c'.1) ∧ ∀ c ∈ m, c.2 ≠ Memory.unlisted

/-- A run of bytes stored from an address up, `mod 65536`: how a program or a boot image is laid into memory from outside. -/
def Memory.store (m : Memory) (a : Nat) : List Byte → Memory
  | [] => m
  | v :: vs => Memory.store (m.write (a % 65536) v) (a + 1) vs

end Sys2Proof.Machine
end

