-- ==== Sys2Proof/Machine/State.lean ====
section
/-! DEFINITION. The state of the machine, everything the spec gives it (10_state.md, 20_memory.md, 70_reset_and_hazards.md R290), the
reasons it can stop, and the state after reset. -/
namespace Sys2Proof.Machine

/-- The four flags (10_state.md R30). F's bits 3:0 are hard-wired to 0, so they are no storage (log entry 9). -/
structure Flags where
  /-- Zero, bit 7 of F. -/
  z : Bool
  /-- Subtract, bit 6 of F. -/
  n : Bool
  /-- Half-carry, bit 5 of F. -/
  h : Bool
  /-- Carry, bit 4 of F. -/
  c : Bool
deriving DecidableEq, Repr

/-- The source descriptor (40_stage_machine.md R131): a value known, or bus reads that remain. -/
inductive Src where
  | none
  | read8 (addr : Word)
  | val8 (value : Byte)
  | read16 (addr : Word)
  | read16Hi (addr : Word) (lo : Byte)
  | val16 (value : Word)
deriving DecidableEq, Repr

/-- The destination descriptor (40_stage_machine.md R133): nothing to do, or bus writes that remain. -/
inductive Dst where
  | none
  | write8 (addr : Word) (value : Byte)
  | write16 (addr : Word) (value : Word)
  | write16Hi (addr : Word) (hi : Byte)
  | done
deriving DecidableEq, Repr

/-- The stage, "the CPU's resumable program counter within an instruction" (10_state.md R40, 40_stage_machine.md R130). -/
inductive Stage where
  | fetch
  | fetchPrefixed
  | read (src : Src)
  | wait (dst : Dst)
  | write (dst : Dst)
deriving DecidableEq, Repr

/-- The fault record held in FLT (60_exceptions.md R260): one constructor per kind, with the fields set for it. -/
inductive FaultRecord where
  /-- Code 1 (R261): a fetched byte matches no family. -/
  | unimplementedOpcode (opcode : Byte) (prefixed : Bool) (pc : Word)
  /-- Code 2 (R262): a bus access outside the region table. -/
  | unmappedAddress (addr : Word) (isWrite : Bool) (pc : Word)
  /-- Code 3 (R263): a selector out of range. Raised by nothing, as the spec says (log entry 16). -/
  | invalidOperandIndex (pc : Word)
  /-- Code 4 (R264): a bus write to the boot ROM. -/
  | bootRomWrite (addr : Word) (pc : Word)
  /-- Code 5 (R270): an interrupt both enabled and requested. -/
  | interruptDispatchUnimplemented (pc : Word)
deriving DecidableEq, Repr

/-- The state. -/
structure State where
  /-- BC (R20). -/
  bc : Word
  /-- DE (R20). -/
  de : Word
  /-- HL (R20). -/
  hl : Word
  /-- A, the high byte of AF (R20, R23). -/
  a : Byte
  /-- F, the low byte of AF, as its four flags (R30). -/
  f : Flags
  /-- SP (R20). -/
  sp : Word
  /-- PC (R20, R34). -/
  pc : Word
  /-- The stage with its descriptor (R40). -/
  stage : Stage
  /-- OPC, the opcode latch (R41). -/
  opc : Byte
  /-- PFX, the prefix latch (R42). -/
  pfx : Bool
  /-- FLT, the sticky fault latch (R45); empty, or the first fault's record. -/
  flt : Option FaultRecord
  /-- IME (R50). -/
  ime : Bool
  /-- The storage of the bus: boot ROM, VRAM, working RAM, OAM, high RAM, and IE at 0xFFFF (20_memory.md R70 to R76). -/
  mem : Memory
  /-- The bus history, newest event first (R62, R63; log entry 8). -/
  history : List BusEvent
  /-- The parameter INC8_FLAGS of this instance (R7, R213; log entry 4). No step changes it. -/
  inc8Flags : Inc8Flags
  /-- M-cycles performed: the model's own field, an argument of the free input INT_REQ (log entry 7). -/
  clock : Nat
deriving DecidableEq, Repr

/-- Reasons the MODEL stops. The spec's own faults are no members: they are latched in FLT and the machine stands still, a next state
(R45, R266; log entry 2). -/
inductive Fault where
  /-- Raised by the M-cycle machine when a `Read` stage completes while (PFX, OPC) select no family. R142 says that cannot be; no
  run reaches it. SAFE: the model stops where the spec says nothing (log entry 11). -/
  | noFamilyInLatches
  /-- Raised by the M-cycle machine when a `Read` stage completes with a value the latched family does not take. R149 never forms
  such a descriptor; no run reaches it. SAFE (log entry 11). -/
  | valueOfWrongWidth
deriving DecidableEq, Repr

/-- Reasons the model has no meaning for an instruction. -/
inductive Refusal where
  /-- Raised by `exec` alone, for an instruction whose meaning is not written yet; no arm does so now. SAFE. -/
  | notModelled (mnemonic : String)
deriving DecidableEq, Repr

/-- The reset state of everything but the memory (70_reset_and_hazards.md R290): "PC=0, SP=0, all registers 0, Stage=Fetch", FLT empty,
IME 0, the history empty. -/
def State.constructWith (mem : Memory) (inc8Flags : Inc8Flags) : State where
  bc := 0x0000
  de := 0x0000
  hl := 0x0000
  a := 0x00
  f := ⟨false, false, false, false⟩
  sp := 0x0000
  pc := 0x0000
  stage := .fetch
  opc := 0x00
  pfx := false
  flt := none
  ime := false
  mem := mem
  history := []
  inc8Flags := inc8Flags
  clock := 0

/-- The state after construction with a boot image (R290, R292): the image at 0x0000 to 0x00FF, every other storage byte zero. -/
def State.construct (image : BootImage) (inc8Flags : Inc8Flags) : State :=
  State.constructWith (Memory.store [] 0 image.toList) inc8Flags

/-- Construction with bytes supplied from outside: there is no state for a list that is not of 256 bytes (R292). -/
def State.construct? (bytes : List Byte) (inc8Flags : Inc8Flags) : Option State :=
  (BootImage.ofBytes? bytes).map (fun image => State.construct image inc8Flags)

/-- The state after reset: construction with the erased boot image, 256 bytes 0x00, of which memory lists none (DESIGN CHOICE, log entry
3), and the spec's recommended default of INC8_FLAGS (DESIGN CHOICE, log entry 4). That it is `State.construct BootImage.erased .znh`
is `State.reset_eq_construct` and a statement about the model. -/
def State.reset : State := State.constructWith [] .znh

end Sys2Proof.Machine
end

