-- ==== Sys2Proof/Machine/Ops.lean ====
section
/-! DEFINITION. The named operations over registers, bus and faults that every meaning is written with: the register file's accessors
(10_state.md R22 to R28), raising a fault (60_exceptions.md R260, R266), the bus (20_memory.md R62, R63), and the M-cycles an
instruction makes after its fetch (40_stage_machine.md R132, R134, R139). -/
namespace Sys2Proof.Machine

/-! ## Register file -/

/-- F as a byte: Z, N, H, C in bits 7 to 4, bits 3:0 zero (R30). -/
def Flags.toByte (f : Flags) : Byte :=
  (if f.z then 0x80 else 0) ||| (if f.n then 0x40 else 0) ||| (if f.h then 0x20 else 0) ||| (if f.c then 0x10 else 0)

/-- A byte written to F: bits 3:0 are discarded (R30). -/
def Flags.ofByte (b : Byte) : Flags := ⟨b.getLsbD 7, b.getLsbD 6, b.getLsbD 5, b.getLsbD 4⟩

/-- `r16[p]` (R22). -/
def State.get16 (s : State) : Reg16 → Word
  | .bc => s.bc
  | .de => s.de
  | .hl => s.hl
  | .af => joinBytes s.a s.f.toByte
  | .sp => s.sp
  | .pc => s.pc

/-- `r16[p] <- v` (R22); AF keeps its bits 3:0 zero (R30). -/
def State.set16 (s : State) (p : Reg16) (v : Word) : State :=
  match p with
  | .bc => { s with bc := v }
  | .de => { s with de := v }
  | .hl => { s with hl := v }
  | .af => { s with a := hiByte v, f := Flags.ofByte (loByte v) }
  | .sp => { s with sp := v }
  | .pc => { s with pc := v }

/-- `r8[n]` (R24). -/
def State.get8 (s : State) : Reg8 → Byte
  | .b => hiByte s.bc
  | .c => loByte s.bc
  | .d => hiByte s.de
  | .e => loByte s.de
  | .h => hiByte s.hl
  | .l => loByte s.hl
  | .a => s.a
  | .f => s.f.toByte

/-- `r8[n] <- v` (R25): the other half of the pair keeps its value. -/
def State.set8 (s : State) (n : Reg8) (v : Byte) : State :=
  match n with
  | .b => { s with bc := joinBytes v (loByte s.bc) }
  | .c => { s with bc := joinBytes (hiByte s.bc) v }
  | .d => { s with de := joinBytes v (loByte s.de) }
  | .e => { s with de := joinBytes (hiByte s.de) v }
  | .h => { s with hl := joinBytes v (loByte s.hl) }
  | .l => { s with hl := joinBytes (hiByte s.hl) v }
  | .a => { s with a := v }
  | .f => { s with f := Flags.ofByte v }

/-- `add16(pair, delta)` (R28): the pre-update value, the post-update value, and the state with the pair updated. -/
def State.add16 (s : State) (p : Reg16) (delta : Word) : Word × Word × State :=
  let s' := s.set16 p (s.get16 p + delta)
  (s.get16 p, s'.get16 p, s')

/-- `sub16(pair, delta)` (R28). -/
def State.sub16 (s : State) (p : Reg16) (delta : Word) : Word × Word × State :=
  let s' := s.set16 p (s.get16 p - delta)
  (s.get16 p, s'.get16 p, s')

/-- The flags written. -/
def State.setFlags (s : State) (f : Flags) : State := { s with f := f }

/-- PC moved by `n`, `mod 65536` (R35), the stage left to what follows. -/
def State.movePc (s : State) (n : Word) : State := { s with pc := s.pc + n }

/-- The sequencer stage written. -/
def State.setStage (s : State) (st : Stage) : State := { s with stage := st }

/-- PC moved past `n` bytes (R34), back at an instruction boundary (R40). -/
def State.advance (s : State) (n : Word) : State := (s.movePc n).setStage .fetch

/-- OPC and PFX written with a fetched byte (R41, R42). -/
def State.latch (s : State) (b : Byte) (prefixed : Bool) : State := { s with opc := b, pfx := prefixed }

/-- IE, the storage byte at 0xFFFF (R51, 20_memory.md R76). -/
def State.ie (s : State) : Byte := s.mem.read 0xFFFF

/-! ## Faults: the one way an exceptional condition is taken -/

/-- `FLT <- X(info)` (R45, R135, R266): the record is latched and nothing else changes. No PC is saved, no mode changes and no vector
is loaded (R273). There is no return from a fault (R274): only reset clears FLT (R266, `State.applyReset`). -/
def State.raise (s : State) (r : FaultRecord) : State := { s with flt := some r }

/-- The state after the `reset` input (R293): the whole table of R290, memory included, with the instance's own boot image and
parameter; the driver's count of M-cycles runs on (log entry 19). -/
def State.applyReset (s : State) : State :=
  { State.constructWith (s.mem.filter (fun c => c.1 < 0x100)) s.inc8Flags with clock := s.clock }

/-- What an M-cycle's work answers: a value and the state, or the state with a fault latched (`raise` ends the step, R11). -/
inductive Res (α : Type) where
  | ok (value : α) (s : State)
  | raised (s : State)
deriving DecidableEq, Repr

/-- The state, whichever way it ended. -/
def Res.state {α : Type} : Res α → State
  | .ok _ s => s
  | .raised s => s

/-! ## Bus -/

/-- The byte a read of a mapped address returns (R70 to R76): the storage byte, or a draw for a device register (R74). -/
def State.busByte (s : State) (a : Word) : Byte :=
  match regionOf a with
  | some r => if r.isDevice then Config.periphRead s.history a else s.mem.read a.toNat
  | none => s.mem.read a.toNat

/-- An event appended to the bus history (R62, R63). -/
def State.log (s : State) (e : BusEvent) : State := { s with history := e :: s.history }

/-- A byte put into storage; a device register's owner takes it and nothing in the core changes (R74). -/
def State.putByte (s : State) (a : Word) (v : Byte) : State :=
  match regionOf a with
  | some r => if r.isDevice then s else { s with mem := s.mem.write a.toNat v }
  | none => s

/-- `BusRead(a)` (R62). -/
def busRead (a : Word) (s : State) : Res Byte :=
  match regionOf a with
  | none => .raised (s.raise (.unmappedAddress a false s.pc))
  | some _ => .ok (s.busByte a) (s.log (.read a (s.busByte a)))

/-- `BusWrite(a, v)` (R63): the region lookup first, then the boot-ROM test (R268). -/
def busWrite (a : Word) (v : Byte) (s : State) : Res Unit :=
  match regionOf a with
  | none => .raised (s.raise (.unmappedAddress a true s.pc))
  | some .bootRom => .raised (s.raise (.bootRomWrite a s.pc))
  | some _ => .ok () ((s.putByte a v).log (.write a v))

/-! ## M-cycles -/

/-- One M-cycle performed; one that raises a fault counts too (log entry 17). -/
def State.tick (s : State) : State := { s with clock := s.clock + 1 }

/-- An M-cycle that reads one byte. -/
def readCycle (a : Word) (s : State) : Res Byte := busRead a s.tick

/-- An M-cycle that writes one byte. -/
def writeCycle (a : Word) (v : Byte) (s : State) : Res Unit := busWrite a v s.tick

/-- The data read of an instruction (R132, R137), in one M-cycle with stage `Read(SrcRead8(a))`; `k` is what executes with the value
in the same M-cycle. A fault leaves the stage as it was at the start of the M-cycle (R135). -/
def readByteThen (a : Word) (k : Byte → State → State) (s : State) : State :=
  match readCycle a (s.setStage (.read (.read8 a))) with
  | .ok v s' => k v s'
  | .raised s' => s'

/-- The one-byte data write that ends an instruction (R134, R139). -/
def writeByte (a : Word) (v : Byte) (s : State) : State :=
  match writeCycle a v (s.setStage (.write (.write8 a v))) with
  | .ok _ s' => s'.setStage .fetch
  | .raised s' => s'

/-- The second write of a two-byte write: the high byte at the next address (R134). -/
def writeHighByte (a : Word) (hi : Byte) (s : State) : State :=
  match writeCycle a hi (s.setStage (.write (.write16Hi a hi))) with
  | .ok _ s' => s'.setStage .fetch
  | .raised s' => s'

/-- The two-byte data write that ends an instruction (R64, R134): low byte at `a`, then high byte at `a + 1 mod 65536`. A fault on
the high byte leaves the low byte written. -/
def writeWord (a v : Word) (s : State) : State :=
  match writeCycle a (loByte v) (s.setStage (.write (.write16 a v))) with
  | .ok _ s' => writeHighByte (a + 1) (hiByte v) s'
  | .raised s' => s'

end Sys2Proof.Machine
end

