-- ==== Sys2Proof/Machine/Fetch.lean ====
section
/-! DEFINITION. Fetching an instruction at the instruction level: the interrupt-enable poll (60_exceptions.md R270), the opcode byte and
the prefix (40_stage_machine.md R136, R138), the immediate bytes (30_encoding.md R114), each byte one bus read in one M-cycle,
in ascending address order (20_memory.md R65, R80). No register but PC (past a prefix, R136), OPC and PFX changes. -/
namespace Sys2Proof.Machine

/-- The interrupt-enable poll (R270): IME and the platform's INT_REQ in this M-cycle. -/
def State.polled (s : State) : Bool := s.ime && Config.intReq s.history s.clock

/-- A fetched instruction, or the fault its last byte raises. The stage is left at `Fetch`; the meaning sets its own. -/
def fetched (f : Family) (lo hi : Byte) (s : State) : Res Instr :=
  match instrOf f lo hi with
  | some i => .ok i (s.setStage .fetch)
  | none => .raised (s.raise (.unimplementedOpcode s.opc s.pfx s.pc))

/-- The immediate bytes of a family, at `pc + 1` and `pc + 2` (R114, R149): the reads of `SrcRead8` and `SrcRead16` (R132). A fault
leaves the descriptor the M-cycle began with. -/
def fetchImmediate (f : Family) (s : State) : Res Instr :=
  match f.immBytes with
  | 0 => fetched f 0 0 s
  | 1 =>
    match readCycle (s.pc + 1) (s.setStage (.read (.read8 (s.pc + 1)))) with
    | .ok n s1 => fetched f n 0 s1
    | .raised s1 => .raised s1
  | _ =>
    match readCycle (s.pc + 1) (s.setStage (.read (.read16 (s.pc + 1)))) with
    | .raised s1 => .raised s1
    | .ok lo s1 =>
      match readCycle (s.pc + 1 + 1) (s1.setStage (.read (.read16Hi (s.pc + 1 + 1) lo))) with
      | .ok hi s2 => fetched f lo hi s2
      | .raised s2 => .raised s2

/-- The family match of the latched opcode byte (R142): a byte no family takes raises `UnimplementedOpcode` with nothing else
changed (46_unimplemented_and_system.md R250, R251). -/
def fetchFamily (s : State) : Res Instr :=
  match familyOf s.pfx s.opc with
  | none => .raised (s.raise (.unimplementedOpcode s.opc s.pfx s.pc))
  | some f => fetchImmediate f s

/-- The second byte of a prefixed instruction (R138): no poll is made before it (R271). -/
def fetchPrefixed (s : State) : Res Instr :=
  match readCycle s.pc s with
  | .ok b s1 => fetchFamily (s1.latch b true)
  | .raised s1 => .raised s1

/-- The instruction at PC (R136): the opcode byte, or the prefix and then the opcode byte. -/
def fetchInstr (s : State) : Res Instr :=
  match readCycle s.pc s with
  | .ok b s1 =>
    if b = 0xCB then fetchPrefixed (((s1.latch b false).movePc 1).setStage .fetchPrefixed)
    else fetchFamily (s1.latch b false)
  | .raised s1 => .raised s1

/-- `n` bytes read from address `a` up, one M-cycle each: what the fetch of an `n`-byte instruction puts on the bus (R65, R150). -/
def readRun (n : Nat) (a : Word) (s : State) : Res (List Byte) :=
  match n with
  | 0 => .ok [] s
  | n + 1 =>
    match readCycle a s with
    | .raised s1 => .raised s1
    | .ok b s1 =>
      match readRun n (a + 1) s1 with
      | .ok bs s2 => .ok (b :: bs) s2
      | .raised s2 => .raised s2

/-- The state a meaning starts in after the bytes `bytes` of its instruction were fetched: OPC and PFX latched (R41, R42), PC past
the prefix if there is one (R136). -/
def State.afterFetch (s : State) (bytes : List Byte) : State :=
  match bytes with
  | b :: rest =>
    if b = 0xCB then ((s.latch (rest.headD 0) true).movePc 1).setStage .fetch
    else (s.latch b false).setStage .fetch
  | [] => s

end Sys2Proof.Machine
end

