-- ==== Sys2Proof/Machine/Operands.lean ====
section
/-! DEFINITION. The operand forms (30_encoding.md R110 to R113; 40_stage_machine.md R144 to R146): registers the selectors name, the
slot as source and as destination, the address forms with their HL update, the condition of a jump, the bit a number names. -/
namespace Sys2Proof

/-- The register of a slot (R110). -/
def SlotReg.reg8 : SlotReg → Reg8
  | .b => .b
  | .c => .c
  | .d => .d
  | .e => .e
  | .h => .h
  | .l => .l
  | .a => .a

/-- The pair of `LD r16,n16` and `INC r16` (R113). -/
def PairSel.reg16 : PairSel → Reg16
  | .bc => .bc
  | .de => .de
  | .hl => .hl
  | .sp => .sp

/-- The pair of `PUSH r16` (R113). -/
def StackSel.reg16 : StackSel → Reg16
  | .bc => .bc
  | .de => .de
  | .hl => .hl
  | .af => .af

/-- The bit's position (R114). -/
def BitNum.toNat : BitNum → Nat
  | .n0 => 0
  | .n1 => 1
  | .n2 => 2
  | .n3 => 3
  | .n4 => 4
  | .n5 => 5
  | .n6 => 6
  | .n7 => 7

namespace Machine

/-- `AddrR16Mem(p)` (R146): the address, and the state with HL stepped for the `[HL+]` and `[HL-]` forms, whose address is the value
before the step (10_state.md R28). -/
def addrR16Mem (p : MemSel) (s : State) : Word × State :=
  match p with
  | .bc => (s.get16 .bc, s)
  | .de => (s.get16 .de, s)
  | .hlInc => ((s.add16 .hl 1).1, (s.add16 .hl 1).2.2)
  | .hlDec => ((s.sub16 .hl 1).1, (s.sub16 .hl 1).2.2)

/-- `SlotSrc(k)` (R144): the register's value, or one read at HL; captured now. -/
def slotSrc (k : Slot) (s : State) : Src :=
  match k with
  | .reg r => .val8 (s.get8 r.reg8)
  | .mem => .read8 (s.get16 .hl)

/-- `SlotDst(k, v)` (R145): a register is written at once and the instruction is over; memory is one write at HL. -/
def slotDst (k : Slot) (v : Byte) (s : State) : State :=
  match k with
  | .reg r => (s.set8 r.reg8 v).setStage .fetch
  | .mem => s.setStage (.write (.write8 (s.get16 .hl) v))

/-- The condition of `JR cc,e8` (R112). -/
def Flags.test (f : Flags) : Cond → Bool
  | .nz => !f.z
  | .z => f.z
  | .nc => !f.c
  | .c => f.c

end Machine

end Sys2Proof
end

