-- ==== Sys2Proof/Machine/Flags.lean ====
section
/-! DEFINITION. Every flag computation of the core (10_state.md R32): XOR, the 8-bit increment, the bit test. -/
namespace Sys2Proof.Machine

/-- The flags `XOR` leaves for the result `r`: Z iff it is zero, N, H and C cleared (43_alu_inc.md R210). -/
def xorFlags (r : Byte) : Flags := ⟨r == 0, false, false, false⟩

/-- `Inc8Flags(old, old + 1)` (43_alu_inc.md R213): with ZNH, Z iff the result is zero, N cleared, H the carry out of bit 3, C kept;
with UNCHANGED nothing. -/
def inc8FlagsOf (mode : Inc8Flags) (old : Byte) (f : Flags) : Flags :=
  match mode with
  | .znh => ⟨old + 1 == 0, false, old &&& 0x0F == 0x0F, f.c⟩
  | .unchanged => f

/-- The flags `BIT` leaves: Z iff bit `n` of `v` is zero, N cleared, H set, C kept (45_prefixed_bit.md R240). -/
def bitFlags (n : BitNum) (v : Byte) (f : Flags) : Flags := ⟨!v.getLsbD n.toNat, false, true, f.c⟩

end Sys2Proof.Machine
end

