-- ==== Sys2Proof/Machine/Cycle.lean ====
section
/-! DEFINITION. The M-cycle machine (40_stage_machine.md): the operand resolver (R131 to R134), decode and execute per family (R142, R149
and the families' rules), and one invocation of "advance one M-cycle" (R135). It is written from the cycle-level rules, apart from the
instruction-level meanings; that the two levels agree (00_scope.md R12) is a statement about the model. -/
namespace Sys2Proof.Machine

/-! ## Operand resolver -/

/-- What a ready source descriptor holds (R131). -/
inductive SrcValue where
  | unit
  | byte (v : Byte)
  | word (v : Word)
deriving DecidableEq, Repr

/-- `Ready(src)` and `value(src)` (R131): some value when no bus read remains. -/
def Src.value? : Src → Option SrcValue
  | .none => some .unit
  | .val8 v => some (.byte v)
  | .val16 v => some (.word v)
  | .read8 _ => Option.none
  | .read16 _ => Option.none
  | .read16Hi _ _ => Option.none

/-- `Done(dst)` (R133). -/
def Dst.isDone : Dst → Bool
  | .none => true
  | .done => true
  | .write8 _ _ => false
  | .write16 _ _ => false
  | .write16Hi _ _ => false

/-- `SrcStep(src)` (R132): zero or one bus read. -/
def srcStep (src : Src) (s : State) : Res Src :=
  match src with
  | .read8 a =>
    match busRead a s with
    | .ok v s' => .ok (.val8 v) s'
    | .raised s' => .raised s'
  | .read16 a =>
    match busRead a s with
    | .ok lo s' => .ok (.read16Hi (a + 1) lo) s'
    | .raised s' => .raised s'
  | .read16Hi a lo =>
    match busRead a s with
    | .ok hi s' => .ok (.val16 (joinBytes hi lo)) s'
    | .raised s' => .raised s'
  | .none => .ok .none s
  | .val8 v => .ok (.val8 v) s
  | .val16 v => .ok (.val16 v) s

/-- `DstStep(dst)` (R134): zero or one bus write. -/
def dstStep (dst : Dst) (s : State) : Res Dst :=
  match dst with
  | .write8 a v =>
    match busWrite a v s with
    | .ok _ s' => .ok .done s'
    | .raised s' => .raised s'
  | .write16 a v =>
    match busWrite a (loByte v) s with
    | .ok _ s' => .ok (.write16Hi (a + 1) (hiByte v)) s'
    | .raised s' => .raised s'
  | .write16Hi a hi =>
    match busWrite a hi s with
    | .ok _ s' => .ok .done s'
    | .raised s' => .raised s'
  | .none => .ok .none s
  | .done => .ok .done s

/-! ## Decode and execute -/

/-- The source descriptor a family forms when it is decoded (R149, column "source"), `pc` being the address of the opcode byte, and the
state with HL stepped where the descriptor's address does that (R146). -/
def sourceOf (f : Family) (s : State) : Src × State :=
  match f with
  | .ldPairImm _ => (.read16 (s.pc + 1), s)
  | .ldMemA _ => (.val8 (s.get8 .a), s)
  | .ldAMem p => (.read8 (addrR16Mem p s).1, (addrR16Mem p s).2)
  | .xor z => (slotSrc z s, s)
  | .ldSlotSlot _ z => (slotSrc z s, s)
  | .ldhImmA => (.read8 (s.pc + 1), s)
  | .ldhCA => (.val8 (s.get8 .a), s)
  | .ldSlotImm _ => (.read8 (s.pc + 1), s)
  | .incSlot y => (slotSrc y s, s)
  | .incPair _ => (.none, s)
  | .jr _ => (.read8 (s.pc + 1), s)
  | .push p => (.val16 (s.get16 p.reg16), s)
  | .bit _ z => (slotSrc z s, s)

/-- `Execute(v)` of one family (R142, R149): register, flag and PC writes, then the next stage. None when the value is not of the kind
the family's source gives, which R149 never forms. -/
def executeFamily (f : Family) (v : SrcValue) (s : State) : Option State :=
  match f, v with
  | .ldPairImm p, .word v => some (((s.set16 p.reg16 v).movePc 3).setStage .fetch)
  | .ldMemA p, .byte v =>
    some (((addrR16Mem p s).2.movePc 1).setStage (.write (.write8 (addrR16Mem p s).1 v)))
  | .ldAMem _, .byte v => some (((s.set8 .a v).movePc 1).setStage .fetch)
  | .xor _, .byte v =>
    some ((((s.set8 .a (s.get8 .a ^^^ v)).setFlags (xorFlags (s.get8 .a ^^^ v))).movePc 1).setStage .fetch)
  | .ldSlotSlot y _, .byte v => some (slotDst y v (s.movePc 1))
  | .ldhImmA, .byte v => some ((s.movePc 2).setStage (.write (.write8 (highPage v) (s.get8 .a))))
  | .ldhCA, .byte v => some ((s.movePc 1).setStage (.write (.write8 (highPage (s.get8 .c)) v)))
  | .ldSlotImm y, .byte v => some (slotDst y v (s.movePc 2))
  | .incSlot y, .byte v =>
    some (slotDst y (v + 1) ((s.setFlags (inc8FlagsOf s.inc8Flags v s.f)).movePc 1))
  | .incPair p, .unit => some (((s.add16 p.reg16 1).2.2.movePc 1).setStage (.write .none))
  | .jr cc, .byte v =>
    some (if s.f.test cc then (s.movePc (2 + sext16 v)).setStage (.write .none) else (s.movePc 2).setStage .fetch)
  | .push _, .word v =>
    some (((s.sub16 .sp 2).2.2.movePc 1).setStage (.wait (.write16 (s.sub16 .sp 2).2.1 v)))
  | .bit n _, .byte v => some (((s.setFlags (bitFlags n v s.f)).movePc 1).setStage .fetch)
  | _, _ => none

/-- `Execute(v)` (R142), for the family the latches select. -/
def executePhase (v : SrcValue) (s : State) : Host.Outcome State Fault Refusal :=
  match familyOf s.pfx s.opc with
  | none => .fault .noFamilyInLatches
  | some f =>
    match executeFamily f v s with
    | some s' => .next s'
    | none => .fault .valueOfWrongWidth

/-- `Decode()` (R142): the family match, the source descriptor, and execution in the same M-cycle when the source is ready (R147). -/
def decodePhase (s : State) : Host.Outcome State Fault Refusal :=
  match familyOf s.pfx s.opc with
  | none => .next (s.raise (.unimplementedOpcode s.opc s.pfx s.pc))
  | some f =>
    match (sourceOf f s).1.value? with
    | some v => executePhase v (sourceOf f s).2
    | none => .next ((sourceOf f s).2.setStage (.read (sourceOf f s).1))

/-! ## One M-cycle -/

/-- Stage `Fetch` (R136), the M-cycle being counted already. -/
def fetchCycle (s : State) : Host.Outcome State Fault Refusal :=
  match busRead s.pc s with
  | .raised s1 => .next s1
  | .ok b s1 =>
    if b = 0xCB then .next (((s1.latch b false).movePc 1).setStage .fetchPrefixed)
    else decodePhase (s1.latch b false)

/-- Stage `FetchPrefixed` (R138): no poll (R271). -/
def fetchPrefixedCycle (s : State) : Host.Outcome State Fault Refusal :=
  match busRead s.pc s with
  | .raised s1 => .next s1
  | .ok b s1 => decodePhase (s1.latch b true)

/-- Stage `Read(src)` (R137): the step, then the readiness test, in one M-cycle. -/
def readStageCycle (src : Src) (s : State) : Host.Outcome State Fault Refusal :=
  match srcStep src s with
  | .raised s1 => .next s1
  | .ok src' s1 =>
    match src'.value? with
    | some v => executePhase v s1
    | none => .next (s1.setStage (.read src'))

/-- Stage `Write(dst)` (R139): the step, then the test, in one M-cycle. -/
def writeStageCycle (dst : Dst) (s : State) : Host.Outcome State Fault Refusal :=
  match dstStep dst s with
  | .raised s1 => .next s1
  | .ok dst' s1 => .next (s1.setStage (if dst'.isDone then .fetch else .write dst'))

/-- `Cycle()` (R135): one invocation of the step API. A latched fault makes it do nothing (R45); otherwise the poll comes first
in a `Fetch` M-cycle (R268), then the stage's work. A fault raised inside leaves Stage as it was at the start. -/
def cycle (s : State) : Host.Outcome State Fault Refusal :=
  if s.flt.isSome then .next s
  else
    match s.stage with
    | .fetch => if s.polled then .next (s.tick.raise (.interruptDispatchUnimplemented s.pc)) else fetchCycle s.tick
    | .fetchPrefixed => fetchPrefixedCycle s.tick
    | .read src => readStageCycle src s.tick
    | .wait dst => .next (s.tick.setStage (.write dst))
    | .write dst => writeStageCycle dst s.tick

/-- `n` M-cycles, stopping where the model stops. -/
def runCycles : Nat → State → Host.Outcome State Fault Refusal
  | 0, s => .next s
  | n + 1, s =>
    match cycle s with
    | .next s' => runCycles n s'
    | .fault r => .fault r
    | .refused r => .refused r

/-- At an instruction boundary, or stopped by a latched fault (R140, R45). -/
def State.atBoundary (s : State) : Bool := s.stage == .fetch || s.flt.isSome

/-- M-cycles until the instruction in progress ends, at most `fuel` of them: the resumption of R152. -/
def finishInstr : Nat → State → Host.Outcome State Fault Refusal
  | 0, s => .next s
  | fuel + 1, s =>
    if s.atBoundary then .next s
    else
      match cycle s with
      | .next s' => finishInstr fuel s'
      | .fault r => .fault r
      | .refused r => .refused r

end Sys2Proof.Machine
end

