-- ==== Sys2Proof/Machine/Alu.lean ====
section
/-! DEFINITION. XOR and the increments (43_alu_inc.md).

A meaning takes the state its fetch left (Machine/Fetch.lean): PC at the opcode byte (for a prefixed instruction at the second
byte, R34, R143), OPC and PFX latched, the instruction's own bytes read. It makes the instruction's data accesses and idle
M-cycles in order and answers the state at the next instruction boundary, or, where a data access faults, the state with the
fault latched, every effect made before it kept and Stage as it was at the start of the faulting M-cycle (R135, R153). -/
namespace Sys2Proof.Machine

/-! ## Shared operations -/

/-- A, the flags and PC after `XOR` with the operand `v` (R210). -/
def xorWith (v : Byte) (s : State) : State :=
  ((s.set8 .a (s.get8 .a ^^^ v)).setFlags (xorFlags (s.get8 .a ^^^ v))).advance 1

/-- `XOR A,r8` (R210). -/
def xorRegister (r : SlotReg) (s : State) : State := xorWith (s.get8 r.reg8) s

/-- `XOR A,[HL]` (R211). -/
def xorMemory (s : State) : State := readByteThen (s.get16 .hl) xorWith s

/-- The flags of an 8-bit increment of `old` (R213), by this instance's INC8_FLAGS. -/
def State.inc8 (s : State) (old : Byte) : State := s.setFlags (inc8FlagsOf s.inc8Flags old s.f)

/-- `INC r8` (R214): only the named half of the pair changes. -/
def incRegister (r : SlotReg) (s : State) : State :=
  ((s.inc8 (s.get8 r.reg8)).set8 r.reg8 (s.get8 r.reg8 + 1)).advance 1

/-- `INC [HL]` (R215): read, flags and PC, write back to the same address. -/
def incMemory (s : State) : State :=
  readByteThen (s.get16 .hl) (fun old s' => writeByte (s'.get16 .hl) (old + 1) ((s'.inc8 old).advance 1)) s

/-- `INC r16` (R218): no flag; one idle M-cycle follows (R148). -/
def incPair (p : PairSel) (s : State) : State := ((s.add16 p.reg16 1).2.2.advance 1).tick

/-! ## One meaning per instruction -/

/-- `INC BC` (03, R218). -/
def execIncBc (s : State) : Host.Outcome State Fault Refusal := .next (incPair .bc s)

/-- `INC B` (04, R214). -/
def execIncB (s : State) : Host.Outcome State Fault Refusal := .next (incRegister .b s)

/-- `INC C` (0C, R214). -/
def execIncC (s : State) : Host.Outcome State Fault Refusal := .next (incRegister .c s)

/-- `INC DE` (13, R218). -/
def execIncDe (s : State) : Host.Outcome State Fault Refusal := .next (incPair .de s)

/-- `INC D` (14, R214). -/
def execIncD (s : State) : Host.Outcome State Fault Refusal := .next (incRegister .d s)

/-- `INC E` (1C, R214). -/
def execIncE (s : State) : Host.Outcome State Fault Refusal := .next (incRegister .e s)

/-- `INC HL` (23, R218). -/
def execIncHl (s : State) : Host.Outcome State Fault Refusal := .next (incPair .hl s)

/-- `INC H` (24, R214). -/
def execIncH (s : State) : Host.Outcome State Fault Refusal := .next (incRegister .h s)

/-- `INC L` (2C, R214). -/
def execIncL (s : State) : Host.Outcome State Fault Refusal := .next (incRegister .l s)

/-- `INC SP` (33, R218). -/
def execIncSp (s : State) : Host.Outcome State Fault Refusal := .next (incPair .sp s)

/-- `INC [HL]` (34, R215). -/
def execIncHlMem (s : State) : Host.Outcome State Fault Refusal := .next (incMemory s)

/-- `INC A` (3C, R214). -/
def execIncA (s : State) : Host.Outcome State Fault Refusal := .next (incRegister .a s)

/-- `XOR A,B` (A8, R210). -/
def execXorB (s : State) : Host.Outcome State Fault Refusal := .next (xorRegister .b s)

/-- `XOR A,C` (A9, R210). -/
def execXorC (s : State) : Host.Outcome State Fault Refusal := .next (xorRegister .c s)

/-- `XOR A,D` (AA, R210). -/
def execXorD (s : State) : Host.Outcome State Fault Refusal := .next (xorRegister .d s)

/-- `XOR A,E` (AB, R210). -/
def execXorE (s : State) : Host.Outcome State Fault Refusal := .next (xorRegister .e s)

/-- `XOR A,H` (AC, R210). -/
def execXorH (s : State) : Host.Outcome State Fault Refusal := .next (xorRegister .h s)

/-- `XOR A,L` (AD, R210). -/
def execXorL (s : State) : Host.Outcome State Fault Refusal := .next (xorRegister .l s)

/-- `XOR A,[HL]` (AE, R211). -/
def execXorHlMem (s : State) : Host.Outcome State Fault Refusal := .next (xorMemory s)

/-- `XOR A,A` (AF, R210). -/
def execXorA (s : State) : Host.Outcome State Fault Refusal := .next (xorRegister .a s)

end Sys2Proof.Machine
end

