-- ==== Sys2Proof/Machine/BitTest.lean ====
section
/-! DEFINITION. The bit test (45_prefixed_bit.md), the only prefixed family. PC is past the prefix already (R240), so it moves by 1.

A meaning takes the state its fetch left (Machine/Fetch.lean): PC at the opcode byte (for a prefixed instruction at the second
byte, R34, R143), OPC and PFX latched, the instruction's own bytes read. It makes the instruction's data accesses and idle
M-cycles in order and answers the state at the next instruction boundary, or, where a data access faults, the state with the
fault latched, every effect made before it kept and Stage as it was at the start of the faulting M-cycle (R135, R153). -/
namespace Sys2Proof.Machine

/-! ## Shared operations -/

/-- The flags and PC after `BIT` of the operand `v` (R240). -/
def bitTest (n : BitNum) (v : Byte) (s : State) : State := (s.setFlags (bitFlags n v s.f)).advance 1

/-- `BIT n3,r8` (R240). -/
def bitRegister (n : BitNum) (r : SlotReg) (s : State) : State := bitTest n (s.get8 r.reg8) s

/-- `BIT n3,[HL]` (R241). -/
def bitMemory (n : BitNum) (s : State) : State := readByteThen (s.get16 .hl) (bitTest n) s

/-! ## One meaning per instruction -/

/-- `BIT 0,B` (CB 40, R240). -/
def execBit0B (s : State) : Host.Outcome State Fault Refusal := .next (bitRegister .n0 .b s)

/-- `BIT 0,C` (CB 41, R240). -/
def execBit0C (s : State) : Host.Outcome State Fault Refusal := .next (bitRegister .n0 .c s)

/-- `BIT 0,D` (CB 42, R240). -/
def execBit0D (s : State) : Host.Outcome State Fault Refusal := .next (bitRegister .n0 .d s)

/-- `BIT 0,E` (CB 43, R240). -/
def execBit0E (s : State) : Host.Outcome State Fault Refusal := .next (bitRegister .n0 .e s)

/-- `BIT 0,H` (CB 44, R240). -/
def execBit0H (s : State) : Host.Outcome State Fault Refusal := .next (bitRegister .n0 .h s)

/-- `BIT 0,L` (CB 45, R240). -/
def execBit0L (s : State) : Host.Outcome State Fault Refusal := .next (bitRegister .n0 .l s)

/-- `BIT 0,[HL]` (CB 46, R241). -/
def execBit0HlMem (s : State) : Host.Outcome State Fault Refusal := .next (bitMemory .n0 s)

/-- `BIT 0,A` (CB 47, R240). -/
def execBit0A (s : State) : Host.Outcome State Fault Refusal := .next (bitRegister .n0 .a s)

/-- `BIT 1,B` (CB 48, R240). -/
def execBit1B (s : State) : Host.Outcome State Fault Refusal := .next (bitRegister .n1 .b s)

/-- `BIT 1,C` (CB 49, R240). -/
def execBit1C (s : State) : Host.Outcome State Fault Refusal := .next (bitRegister .n1 .c s)

/-- `BIT 1,D` (CB 4A, R240). -/
def execBit1D (s : State) : Host.Outcome State Fault Refusal := .next (bitRegister .n1 .d s)

/-- `BIT 1,E` (CB 4B, R240). -/
def execBit1E (s : State) : Host.Outcome State Fault Refusal := .next (bitRegister .n1 .e s)

/-- `BIT 1,H` (CB 4C, R240). -/
def execBit1H (s : State) : Host.Outcome State Fault Refusal := .next (bitRegister .n1 .h s)

/-- `BIT 1,L` (CB 4D, R240). -/
def execBit1L (s : State) : Host.Outcome State Fault Refusal := .next (bitRegister .n1 .l s)

/-- `BIT 1,[HL]` (CB 4E, R241). -/
def execBit1HlMem (s : State) : Host.Outcome State Fault Refusal := .next (bitMemory .n1 s)

/-- `BIT 1,A` (CB 4F, R240). -/
def execBit1A (s : State) : Host.Outcome State Fault Refusal := .next (bitRegister .n1 .a s)

/-- `BIT 2,B` (CB 50, R240). -/
def execBit2B (s : State) : Host.Outcome State Fault Refusal := .next (bitRegister .n2 .b s)

/-- `BIT 2,C` (CB 51, R240). -/
def execBit2C (s : State) : Host.Outcome State Fault Refusal := .next (bitRegister .n2 .c s)

/-- `BIT 2,D` (CB 52, R240). -/
def execBit2D (s : State) : Host.Outcome State Fault Refusal := .next (bitRegister .n2 .d s)

/-- `BIT 2,E` (CB 53, R240). -/
def execBit2E (s : State) : Host.Outcome State Fault Refusal := .next (bitRegister .n2 .e s)

/-- `BIT 2,H` (CB 54, R240). -/
def execBit2H (s : State) : Host.Outcome State Fault Refusal := .next (bitRegister .n2 .h s)

/-- `BIT 2,L` (CB 55, R240). -/
def execBit2L (s : State) : Host.Outcome State Fault Refusal := .next (bitRegister .n2 .l s)

/-- `BIT 2,[HL]` (CB 56, R241). -/
def execBit2HlMem (s : State) : Host.Outcome State Fault Refusal := .next (bitMemory .n2 s)

/-- `BIT 2,A` (CB 57, R240). -/
def execBit2A (s : State) : Host.Outcome State Fault Refusal := .next (bitRegister .n2 .a s)

/-- `BIT 3,B` (CB 58, R240). -/
def execBit3B (s : State) : Host.Outcome State Fault Refusal := .next (bitRegister .n3 .b s)

/-- `BIT 3,C` (CB 59, R240). -/
def execBit3C (s : State) : Host.Outcome State Fault Refusal := .next (bitRegister .n3 .c s)

/-- `BIT 3,D` (CB 5A, R240). -/
def execBit3D (s : State) : Host.Outcome State Fault Refusal := .next (bitRegister .n3 .d s)

/-- `BIT 3,E` (CB 5B, R240). -/
def execBit3E (s : State) : Host.Outcome State Fault Refusal := .next (bitRegister .n3 .e s)

/-- `BIT 3,H` (CB 5C, R240). -/
def execBit3H (s : State) : Host.Outcome State Fault Refusal := .next (bitRegister .n3 .h s)

/-- `BIT 3,L` (CB 5D, R240). -/
def execBit3L (s : State) : Host.Outcome State Fault Refusal := .next (bitRegister .n3 .l s)

/-- `BIT 3,[HL]` (CB 5E, R241). -/
def execBit3HlMem (s : State) : Host.Outcome State Fault Refusal := .next (bitMemory .n3 s)

/-- `BIT 3,A` (CB 5F, R240). -/
def execBit3A (s : State) : Host.Outcome State Fault Refusal := .next (bitRegister .n3 .a s)

/-- `BIT 4,B` (CB 60, R240). -/
def execBit4B (s : State) : Host.Outcome State Fault Refusal := .next (bitRegister .n4 .b s)

/-- `BIT 4,C` (CB 61, R240). -/
def execBit4C (s : State) : Host.Outcome State Fault Refusal := .next (bitRegister .n4 .c s)

/-- `BIT 4,D` (CB 62, R240). -/
def execBit4D (s : State) : Host.Outcome State Fault Refusal := .next (bitRegister .n4 .d s)

/-- `BIT 4,E` (CB 63, R240). -/
def execBit4E (s : State) : Host.Outcome State Fault Refusal := .next (bitRegister .n4 .e s)

/-- `BIT 4,H` (CB 64, R240). -/
def execBit4H (s : State) : Host.Outcome State Fault Refusal := .next (bitRegister .n4 .h s)

/-- `BIT 4,L` (CB 65, R240). -/
def execBit4L (s : State) : Host.Outcome State Fault Refusal := .next (bitRegister .n4 .l s)

/-- `BIT 4,[HL]` (CB 66, R241). -/
def execBit4HlMem (s : State) : Host.Outcome State Fault Refusal := .next (bitMemory .n4 s)

/-- `BIT 4,A` (CB 67, R240). -/
def execBit4A (s : State) : Host.Outcome State Fault Refusal := .next (bitRegister .n4 .a s)

/-- `BIT 5,B` (CB 68, R240). -/
def execBit5B (s : State) : Host.Outcome State Fault Refusal := .next (bitRegister .n5 .b s)

/-- `BIT 5,C` (CB 69, R240). -/
def execBit5C (s : State) : Host.Outcome State Fault Refusal := .next (bitRegister .n5 .c s)

/-- `BIT 5,D` (CB 6A, R240). -/
def execBit5D (s : State) : Host.Outcome State Fault Refusal := .next (bitRegister .n5 .d s)

/-- `BIT 5,E` (CB 6B, R240). -/
def execBit5E (s : State) : Host.Outcome State Fault Refusal := .next (bitRegister .n5 .e s)

/-- `BIT 5,H` (CB 6C, R240). -/
def execBit5H (s : State) : Host.Outcome State Fault Refusal := .next (bitRegister .n5 .h s)

/-- `BIT 5,L` (CB 6D, R240). -/
def execBit5L (s : State) : Host.Outcome State Fault Refusal := .next (bitRegister .n5 .l s)

/-- `BIT 5,[HL]` (CB 6E, R241). -/
def execBit5HlMem (s : State) : Host.Outcome State Fault Refusal := .next (bitMemory .n5 s)

/-- `BIT 5,A` (CB 6F, R240). -/
def execBit5A (s : State) : Host.Outcome State Fault Refusal := .next (bitRegister .n5 .a s)

/-- `BIT 6,B` (CB 70, R240). -/
def execBit6B (s : State) : Host.Outcome State Fault Refusal := .next (bitRegister .n6 .b s)

/-- `BIT 6,C` (CB 71, R240). -/
def execBit6C (s : State) : Host.Outcome State Fault Refusal := .next (bitRegister .n6 .c s)

/-- `BIT 6,D` (CB 72, R240). -/
def execBit6D (s : State) : Host.Outcome State Fault Refusal := .next (bitRegister .n6 .d s)

/-- `BIT 6,E` (CB 73, R240). -/
def execBit6E (s : State) : Host.Outcome State Fault Refusal := .next (bitRegister .n6 .e s)

/-- `BIT 6,H` (CB 74, R240). -/
def execBit6H (s : State) : Host.Outcome State Fault Refusal := .next (bitRegister .n6 .h s)

/-- `BIT 6,L` (CB 75, R240). -/
def execBit6L (s : State) : Host.Outcome State Fault Refusal := .next (bitRegister .n6 .l s)

/-- `BIT 6,[HL]` (CB 76, R241). -/
def execBit6HlMem (s : State) : Host.Outcome State Fault Refusal := .next (bitMemory .n6 s)

/-- `BIT 6,A` (CB 77, R240). -/
def execBit6A (s : State) : Host.Outcome State Fault Refusal := .next (bitRegister .n6 .a s)

/-- `BIT 7,B` (CB 78, R240). -/
def execBit7B (s : State) : Host.Outcome State Fault Refusal := .next (bitRegister .n7 .b s)

/-- `BIT 7,C` (CB 79, R240). -/
def execBit7C (s : State) : Host.Outcome State Fault Refusal := .next (bitRegister .n7 .c s)

/-- `BIT 7,D` (CB 7A, R240). -/
def execBit7D (s : State) : Host.Outcome State Fault Refusal := .next (bitRegister .n7 .d s)

/-- `BIT 7,E` (CB 7B, R240). -/
def execBit7E (s : State) : Host.Outcome State Fault Refusal := .next (bitRegister .n7 .e s)

/-- `BIT 7,H` (CB 7C, R240). -/
def execBit7H (s : State) : Host.Outcome State Fault Refusal := .next (bitRegister .n7 .h s)

/-- `BIT 7,L` (CB 7D, R240). -/
def execBit7L (s : State) : Host.Outcome State Fault Refusal := .next (bitRegister .n7 .l s)

/-- `BIT 7,[HL]` (CB 7E, R241). -/
def execBit7HlMem (s : State) : Host.Outcome State Fault Refusal := .next (bitMemory .n7 s)

/-- `BIT 7,A` (CB 7F, R240). -/
def execBit7A (s : State) : Host.Outcome State Fault Refusal := .next (bitRegister .n7 .a s)

end Sys2Proof.Machine
end

