-- ==== Sys2Proof/Machine/Jumps.lean ====
section
/-! DEFINITION. The conditional relative jump (44_jumps.md R230), the only control transfer of the core (R231). It writes no flag.

A meaning takes the state its fetch left (Machine/Fetch.lean): PC at the opcode byte (for a prefixed instruction at the second
byte, R34, R143), OPC and PFX latched, the instruction's own bytes read. It makes the instruction's data accesses and idle
M-cycles in order and answers the state at the next instruction boundary, or, where a data access faults, the state with the
fault latched, every effect made before it kept and Stage as it was at the start of the faulting M-cycle (R135, R153). -/
namespace Sys2Proof.Machine

/-! ## Shared operations -/

/-- `JR cc,e8` (R230): relative to the next instruction, PC + 2; a taken jump has one idle M-cycle more (R148). -/
def jumpRelative (cc : Cond) (e : Byte) (s : State) : State :=
  if s.f.test cc then (s.advance (2 + sext16 e)).tick else s.advance 2

/-! ## One meaning per instruction -/

/-- `JR NZ,e8` (20, R230). -/
def execJrNz (e : Byte) (s : State) : Host.Outcome State Fault Refusal := .next (jumpRelative .nz e s)

/-- `JR Z,e8` (28, R230). -/
def execJrZ (e : Byte) (s : State) : Host.Outcome State Fault Refusal := .next (jumpRelative .z e s)

/-- `JR NC,e8` (30, R230). -/
def execJrNc (e : Byte) (s : State) : Host.Outcome State Fault Refusal := .next (jumpRelative .nc e s)

/-- `JR C,e8` (38, R230). -/
def execJrC (e : Byte) (s : State) : Host.Outcome State Fault Refusal := .next (jumpRelative .c e s)

end Sys2Proof.Machine
end

