-- ==== Sys2Proof/Machine/Loads16.lean ====
section
/-! DEFINITION. The 16-bit immediate load and PUSH (42_loads_16bit_stack.md). Neither writes a flag.

A meaning takes the state its fetch left (Machine/Fetch.lean): PC at the opcode byte (for a prefixed instruction at the second
byte, R34, R143), OPC and PFX latched, the instruction's own bytes read. It makes the instruction's data accesses and idle
M-cycles in order and answers the state at the next instruction boundary, or, where a data access faults, the state with the
fault latched, every effect made before it kept and Stage as it was at the start of the faulting M-cycle (R135, R153). -/
namespace Sys2Proof.Machine

/-! ## Shared operations -/

/-- `LD r16,n16` (R200). -/
def loadPair (p : PairSel) (n : Word) (s : State) : State := (s.set16 p.reg16 n).advance 3

/-- `PUSH r16` (R201): the value is captured, SP drops by 2, PC moves, one idle M-cycle passes, then the low byte is written at the
new SP and the high byte above it. -/
def pushPair (p : StackSel) (s : State) : State :=
  writeWord (s.sub16 .sp 2).2.1 (s.get16 p.reg16) ((s.sub16 .sp 2).2.2.advance 1).tick

/-! ## One meaning per instruction -/

/-- `LD BC,n16` (01, R200). -/
def execLdBcN16 (n : Word) (s : State) : Host.Outcome State Fault Refusal := .next (loadPair .bc n s)

/-- `LD DE,n16` (11, R200). -/
def execLdDeN16 (n : Word) (s : State) : Host.Outcome State Fault Refusal := .next (loadPair .de n s)

/-- `LD HL,n16` (21, R200). -/
def execLdHlN16 (n : Word) (s : State) : Host.Outcome State Fault Refusal := .next (loadPair .hl n s)

/-- `LD SP,n16` (31, R200). -/
def execLdSpN16 (n : Word) (s : State) : Host.Outcome State Fault Refusal := .next (loadPair .sp n s)

/-- `PUSH BC` (C5, R201). -/
def execPushBc (s : State) : Host.Outcome State Fault Refusal := .next (pushPair .bc s)

/-- `PUSH DE` (D5, R201). -/
def execPushDe (s : State) : Host.Outcome State Fault Refusal := .next (pushPair .de s)

/-- `PUSH HL` (E5, R201). -/
def execPushHl (s : State) : Host.Outcome State Fault Refusal := .next (pushPair .hl s)

/-- `PUSH AF` (F5, R201). -/
def execPushAf (s : State) : Host.Outcome State Fault Refusal := .next (pushPair .af s)

end Sys2Proof.Machine
end

