-- ==== Sys2Proof/Machine/Loads8.lean ====
section
/-! DEFINITION. The 8-bit loads and stores (41_loads_8bit.md). None of them writes a flag (R170).

A meaning takes the state its fetch left (Machine/Fetch.lean): PC at the opcode byte (for a prefixed instruction at the second
byte, R34, R143), OPC and PFX latched, the instruction's own bytes read. It makes the instruction's data accesses and idle
M-cycles in order and answers the state at the next instruction boundary, or, where a data access faults, the state with the
fault latched, every effect made before it kept and Stage as it was at the start of the faulting M-cycle (R135, R153). -/
namespace Sys2Proof.Machine

/-! ## Shared operations -/

/-- `LD [r16(±)],A` (R172 to R174): address and value are captured before PC moves; the HL forms write to the old HL. -/
def storeThrough (p : MemSel) (s : State) : State :=
  writeByte (addrR16Mem p s).1 (s.get8 .a) ((addrR16Mem p s).2.advance 1)

/-- `LD A,[r16(±)]` (R175 to R177): HL is stepped before the read, which uses its old value; A and PC change after it. -/
def loadThrough (p : MemSel) (s : State) : State :=
  readByteThen (addrR16Mem p s).1 (fun v s' => (s'.set8 .a v).advance 1) (addrR16Mem p s).2

/-- `LD r8,r8'` (R179). -/
def copyRegister (dst src : SlotReg) (s : State) : State := (s.set8 dst.reg8 (s.get8 src.reg8)).advance 1

/-- `LD r8,[HL]` (R180). -/
def loadRegister (dst : SlotReg) (s : State) : State :=
  readByteThen (s.get16 .hl) (fun v s' => (s'.set8 dst.reg8 v).advance 1) s

/-- `LD [HL],r8` (R181). -/
def storeRegister (src : SlotReg) (s : State) : State := writeByte (s.get16 .hl) (s.get8 src.reg8) (s.advance 1)

/-- `LD r8,n8` (R182). -/
def loadImmediate (dst : SlotReg) (n : Byte) (s : State) : State := (s.set8 dst.reg8 n).advance 2

/-- `LD [HL],n8` (R183). -/
def storeImmediate (n : Byte) (s : State) : State := writeByte (s.get16 .hl) n (s.advance 2)

/-- `LDH [n8],A` (R184) and `LDH [C],A` (R185): A to 0xFF00 + `off`, by an instruction of `len` bytes. -/
def storeHighPage (off : Byte) (len : Word) (s : State) : State := writeByte (highPage off) (s.get8 .a) (s.advance len)

/-! ## One meaning per instruction -/

/-- `LD [BC],A` (02, R172). -/
def execLdBcMemFromA (s : State) : Host.Outcome State Fault Refusal := .next (storeThrough .bc s)

/-- `LD B,n8` (06, R182). -/
def execLdBN8 (n : Byte) (s : State) : Host.Outcome State Fault Refusal := .next (loadImmediate .b n s)

/-- `LD A,[BC]` (0A, R175). -/
def execLdAFromBcMem (s : State) : Host.Outcome State Fault Refusal := .next (loadThrough .bc s)

/-- `LD C,n8` (0E, R182). -/
def execLdCN8 (n : Byte) (s : State) : Host.Outcome State Fault Refusal := .next (loadImmediate .c n s)

/-- `LD [DE],A` (12, R172). -/
def execLdDeMemFromA (s : State) : Host.Outcome State Fault Refusal := .next (storeThrough .de s)

/-- `LD D,n8` (16, R182). -/
def execLdDN8 (n : Byte) (s : State) : Host.Outcome State Fault Refusal := .next (loadImmediate .d n s)

/-- `LD A,[DE]` (1A, R175). -/
def execLdAFromDeMem (s : State) : Host.Outcome State Fault Refusal := .next (loadThrough .de s)

/-- `LD E,n8` (1E, R182). -/
def execLdEN8 (n : Byte) (s : State) : Host.Outcome State Fault Refusal := .next (loadImmediate .e n s)

/-- `LD [HL+],A` (22, R173). -/
def execLdHlIncFromA (s : State) : Host.Outcome State Fault Refusal := .next (storeThrough .hlInc s)

/-- `LD H,n8` (26, R182). -/
def execLdHN8 (n : Byte) (s : State) : Host.Outcome State Fault Refusal := .next (loadImmediate .h n s)

/-- `LD A,[HL+]` (2A, R176). -/
def execLdAFromHlInc (s : State) : Host.Outcome State Fault Refusal := .next (loadThrough .hlInc s)

/-- `LD L,n8` (2E, R182). -/
def execLdLN8 (n : Byte) (s : State) : Host.Outcome State Fault Refusal := .next (loadImmediate .l n s)

/-- `LD [HL-],A` (32, R174). -/
def execLdHlDecFromA (s : State) : Host.Outcome State Fault Refusal := .next (storeThrough .hlDec s)

/-- `LD [HL],n8` (36, R183). -/
def execLdHlMemN8 (n : Byte) (s : State) : Host.Outcome State Fault Refusal := .next (storeImmediate n s)

/-- `LD A,[HL-]` (3A, R177). -/
def execLdAFromHlDec (s : State) : Host.Outcome State Fault Refusal := .next (loadThrough .hlDec s)

/-- `LD A,n8` (3E, R182). -/
def execLdAN8 (n : Byte) (s : State) : Host.Outcome State Fault Refusal := .next (loadImmediate .a n s)

/-- `LD B,B` (40, R179). -/
def execLdBFromB (s : State) : Host.Outcome State Fault Refusal := .next (copyRegister .b .b s)

/-- `LD B,C` (41, R179). -/
def execLdBFromC (s : State) : Host.Outcome State Fault Refusal := .next (copyRegister .b .c s)

/-- `LD B,D` (42, R179). -/
def execLdBFromD (s : State) : Host.Outcome State Fault Refusal := .next (copyRegister .b .d s)

/-- `LD B,E` (43, R179). -/
def execLdBFromE (s : State) : Host.Outcome State Fault Refusal := .next (copyRegister .b .e s)

/-- `LD B,H` (44, R179). -/
def execLdBFromH (s : State) : Host.Outcome State Fault Refusal := .next (copyRegister .b .h s)

/-- `LD B,L` (45, R179). -/
def execLdBFromL (s : State) : Host.Outcome State Fault Refusal := .next (copyRegister .b .l s)

/-- `LD B,[HL]` (46, R180). -/
def execLdBFromHlMem (s : State) : Host.Outcome State Fault Refusal := .next (loadRegister .b s)

/-- `LD B,A` (47, R179). -/
def execLdBFromA (s : State) : Host.Outcome State Fault Refusal := .next (copyRegister .b .a s)

/-- `LD C,B` (48, R179). -/
def execLdCFromB (s : State) : Host.Outcome State Fault Refusal := .next (copyRegister .c .b s)

/-- `LD C,C` (49, R179). -/
def execLdCFromC (s : State) : Host.Outcome State Fault Refusal := .next (copyRegister .c .c s)

/-- `LD C,D` (4A, R179). -/
def execLdCFromD (s : State) : Host.Outcome State Fault Refusal := .next (copyRegister .c .d s)

/-- `LD C,E` (4B, R179). -/
def execLdCFromE (s : State) : Host.Outcome State Fault Refusal := .next (copyRegister .c .e s)

/-- `LD C,H` (4C, R179). -/
def execLdCFromH (s : State) : Host.Outcome State Fault Refusal := .next (copyRegister .c .h s)

/-- `LD C,L` (4D, R179). -/
def execLdCFromL (s : State) : Host.Outcome State Fault Refusal := .next (copyRegister .c .l s)

/-- `LD C,[HL]` (4E, R180). -/
def execLdCFromHlMem (s : State) : Host.Outcome State Fault Refusal := .next (loadRegister .c s)

/-- `LD C,A` (4F, R179). -/
def execLdCFromA (s : State) : Host.Outcome State Fault Refusal := .next (copyRegister .c .a s)

/-- `LD D,B` (50, R179). -/
def execLdDFromB (s : State) : Host.Outcome State Fault Refusal := .next (copyRegister .d .b s)

/-- `LD D,C` (51, R179). -/
def execLdDFromC (s : State) : Host.Outcome State Fault Refusal := .next (copyRegister .d .c s)

/-- `LD D,D` (52, R179). -/
def execLdDFromD (s : State) : Host.Outcome State Fault Refusal := .next (copyRegister .d .d s)

/-- `LD D,E` (53, R179). -/
def execLdDFromE (s : State) : Host.Outcome State Fault Refusal := .next (copyRegister .d .e s)

/-- `LD D,H` (54, R179). -/
def execLdDFromH (s : State) : Host.Outcome State Fault Refusal := .next (copyRegister .d .h s)

/-- `LD D,L` (55, R179). -/
def execLdDFromL (s : State) : Host.Outcome State Fault Refusal := .next (copyRegister .d .l s)

/-- `LD D,[HL]` (56, R180). -/
def execLdDFromHlMem (s : State) : Host.Outcome State Fault Refusal := .next (loadRegister .d s)

/-- `LD D,A` (57, R179). -/
def execLdDFromA (s : State) : Host.Outcome State Fault Refusal := .next (copyRegister .d .a s)

/-- `LD E,B` (58, R179). -/
def execLdEFromB (s : State) : Host.Outcome State Fault Refusal := .next (copyRegister .e .b s)

/-- `LD E,C` (59, R179). -/
def execLdEFromC (s : State) : Host.Outcome State Fault Refusal := .next (copyRegister .e .c s)

/-- `LD E,D` (5A, R179). -/
def execLdEFromD (s : State) : Host.Outcome State Fault Refusal := .next (copyRegister .e .d s)

/-- `LD E,E` (5B, R179). -/
def execLdEFromE (s : State) : Host.Outcome State Fault Refusal := .next (copyRegister .e .e s)

/-- `LD E,H` (5C, R179). -/
def execLdEFromH (s : State) : Host.Outcome State Fault Refusal := .next (copyRegister .e .h s)

/-- `LD E,L` (5D, R179). -/
def execLdEFromL (s : State) : Host.Outcome State Fault Refusal := .next (copyRegister .e .l s)

/-- `LD E,[HL]` (5E, R180). -/
def execLdEFromHlMem (s : State) : Host.Outcome State Fault Refusal := .next (loadRegister .e s)

/-- `LD E,A` (5F, R179). -/
def execLdEFromA (s : State) : Host.Outcome State Fault Refusal := .next (copyRegister .e .a s)

/-- `LD H,B` (60, R179). -/
def execLdHFromB (s : State) : Host.Outcome State Fault Refusal := .next (copyRegister .h .b s)

/-- `LD H,C` (61, R179). -/
def execLdHFromC (s : State) : Host.Outcome State Fault Refusal := .next (copyRegister .h .c s)

/-- `LD H,D` (62, R179). -/
def execLdHFromD (s : State) : Host.Outcome State Fault Refusal := .next (copyRegister .h .d s)

/-- `LD H,E` (63, R179). -/
def execLdHFromE (s : State) : Host.Outcome State Fault Refusal := .next (copyRegister .h .e s)

/-- `LD H,H` (64, R179). -/
def execLdHFromH (s : State) : Host.Outcome State Fault Refusal := .next (copyRegister .h .h s)

/-- `LD H,L` (65, R179). -/
def execLdHFromL (s : State) : Host.Outcome State Fault Refusal := .next (copyRegister .h .l s)

/-- `LD H,[HL]` (66, R180). -/
def execLdHFromHlMem (s : State) : Host.Outcome State Fault Refusal := .next (loadRegister .h s)

/-- `LD H,A` (67, R179). -/
def execLdHFromA (s : State) : Host.Outcome State Fault Refusal := .next (copyRegister .h .a s)

/-- `LD L,B` (68, R179). -/
def execLdLFromB (s : State) : Host.Outcome State Fault Refusal := .next (copyRegister .l .b s)

/-- `LD L,C` (69, R179). -/
def execLdLFromC (s : State) : Host.Outcome State Fault Refusal := .next (copyRegister .l .c s)

/-- `LD L,D` (6A, R179). -/
def execLdLFromD (s : State) : Host.Outcome State Fault Refusal := .next (copyRegister .l .d s)

/-- `LD L,E` (6B, R179). -/
def execLdLFromE (s : State) : Host.Outcome State Fault Refusal := .next (copyRegister .l .e s)

/-- `LD L,H` (6C, R179). -/
def execLdLFromH (s : State) : Host.Outcome State Fault Refusal := .next (copyRegister .l .h s)

/-- `LD L,L` (6D, R179). -/
def execLdLFromL (s : State) : Host.Outcome State Fault Refusal := .next (copyRegister .l .l s)

/-- `LD L,[HL]` (6E, R180). -/
def execLdLFromHlMem (s : State) : Host.Outcome State Fault Refusal := .next (loadRegister .l s)

/-- `LD L,A` (6F, R179). -/
def execLdLFromA (s : State) : Host.Outcome State Fault Refusal := .next (copyRegister .l .a s)

/-- `LD [HL],B` (70, R181). -/
def execLdHlMemFromB (s : State) : Host.Outcome State Fault Refusal := .next (storeRegister .b s)

/-- `LD [HL],C` (71, R181). -/
def execLdHlMemFromC (s : State) : Host.Outcome State Fault Refusal := .next (storeRegister .c s)

/-- `LD [HL],D` (72, R181). -/
def execLdHlMemFromD (s : State) : Host.Outcome State Fault Refusal := .next (storeRegister .d s)

/-- `LD [HL],E` (73, R181). -/
def execLdHlMemFromE (s : State) : Host.Outcome State Fault Refusal := .next (storeRegister .e s)

/-- `LD [HL],H` (74, R181). -/
def execLdHlMemFromH (s : State) : Host.Outcome State Fault Refusal := .next (storeRegister .h s)

/-- `LD [HL],L` (75, R181). -/
def execLdHlMemFromL (s : State) : Host.Outcome State Fault Refusal := .next (storeRegister .l s)

/-- `LD [HL],A` (77, R181). -/
def execLdHlMemFromA (s : State) : Host.Outcome State Fault Refusal := .next (storeRegister .a s)

/-- `LD A,B` (78, R179). -/
def execLdAFromB (s : State) : Host.Outcome State Fault Refusal := .next (copyRegister .a .b s)

/-- `LD A,C` (79, R179). -/
def execLdAFromC (s : State) : Host.Outcome State Fault Refusal := .next (copyRegister .a .c s)

/-- `LD A,D` (7A, R179). -/
def execLdAFromD (s : State) : Host.Outcome State Fault Refusal := .next (copyRegister .a .d s)

/-- `LD A,E` (7B, R179). -/
def execLdAFromE (s : State) : Host.Outcome State Fault Refusal := .next (copyRegister .a .e s)

/-- `LD A,H` (7C, R179). -/
def execLdAFromH (s : State) : Host.Outcome State Fault Refusal := .next (copyRegister .a .h s)

/-- `LD A,L` (7D, R179). -/
def execLdAFromL (s : State) : Host.Outcome State Fault Refusal := .next (copyRegister .a .l s)

/-- `LD A,[HL]` (7E, R180). -/
def execLdAFromHlMem (s : State) : Host.Outcome State Fault Refusal := .next (loadRegister .a s)

/-- `LD A,A` (7F, R179). -/
def execLdAFromA (s : State) : Host.Outcome State Fault Refusal := .next (copyRegister .a .a s)

/-- `LDH [n8],A` (E0, R184). -/
def execLdhN8FromA (n : Byte) (s : State) : Host.Outcome State Fault Refusal := .next (storeHighPage n 2 s)

/-- `LDH [C],A` (E2, R185). -/
def execLdhCFromA (s : State) : Host.Outcome State Fault Refusal := .next (storeHighPage (s.get8 .c) 1 s)

end Sys2Proof.Machine
end

