-- ==== Sys2Proof/Machine/Dispatch.lean ====
section
/-! DEFINITION. The dispatch: one arm per instruction, each one call of that instruction's meaning. -/
namespace Sys2Proof.Machine

def exec (i : Instr) (s : State) : Host.Outcome State Fault Refusal :=
  match i with
  | .ldBcN16 n => Sys2Proof.Machine.execLdBcN16 n s
  | .ldBcMemFromA => Sys2Proof.Machine.execLdBcMemFromA s
  | .incBc => Sys2Proof.Machine.execIncBc s
  | .incB => Sys2Proof.Machine.execIncB s
  | .ldBN8 n => Sys2Proof.Machine.execLdBN8 n s
  | .ldAFromBcMem => Sys2Proof.Machine.execLdAFromBcMem s
  | .incC => Sys2Proof.Machine.execIncC s
  | .ldCN8 n => Sys2Proof.Machine.execLdCN8 n s
  | .ldDeN16 n => Sys2Proof.Machine.execLdDeN16 n s
  | .ldDeMemFromA => Sys2Proof.Machine.execLdDeMemFromA s
  | .incDe => Sys2Proof.Machine.execIncDe s
  | .incD => Sys2Proof.Machine.execIncD s
  | .ldDN8 n => Sys2Proof.Machine.execLdDN8 n s
  | .ldAFromDeMem => Sys2Proof.Machine.execLdAFromDeMem s
  | .incE => Sys2Proof.Machine.execIncE s
  | .ldEN8 n => Sys2Proof.Machine.execLdEN8 n s
  | .jrNz e => Sys2Proof.Machine.execJrNz e s
  | .ldHlN16 n => Sys2Proof.Machine.execLdHlN16 n s
  | .ldHlIncFromA => Sys2Proof.Machine.execLdHlIncFromA s
  | .incHl => Sys2Proof.Machine.execIncHl s
  | .incH => Sys2Proof.Machine.execIncH s
  | .ldHN8 n => Sys2Proof.Machine.execLdHN8 n s
  | .jrZ e => Sys2Proof.Machine.execJrZ e s
  | .ldAFromHlInc => Sys2Proof.Machine.execLdAFromHlInc s
  | .incL => Sys2Proof.Machine.execIncL s
  | .ldLN8 n => Sys2Proof.Machine.execLdLN8 n s
  | .jrNc e => Sys2Proof.Machine.execJrNc e s
  | .ldSpN16 n => Sys2Proof.Machine.execLdSpN16 n s
  | .ldHlDecFromA => Sys2Proof.Machine.execLdHlDecFromA s
  | .incSp => Sys2Proof.Machine.execIncSp s
  | .incHlMem => Sys2Proof.Machine.execIncHlMem s
  | .ldHlMemN8 n => Sys2Proof.Machine.execLdHlMemN8 n s
  | .jrC e => Sys2Proof.Machine.execJrC e s
  | .ldAFromHlDec => Sys2Proof.Machine.execLdAFromHlDec s
  | .incA => Sys2Proof.Machine.execIncA s
  | .ldAN8 n => Sys2Proof.Machine.execLdAN8 n s
  | .ldBFromB => Sys2Proof.Machine.execLdBFromB s
  | .ldBFromC => Sys2Proof.Machine.execLdBFromC s
  | .ldBFromD => Sys2Proof.Machine.execLdBFromD s
  | .ldBFromE => Sys2Proof.Machine.execLdBFromE s
  | .ldBFromH => Sys2Proof.Machine.execLdBFromH s
  | .ldBFromL => Sys2Proof.Machine.execLdBFromL s
  | .ldBFromHlMem => Sys2Proof.Machine.execLdBFromHlMem s
  | .ldBFromA => Sys2Proof.Machine.execLdBFromA s
  | .ldCFromB => Sys2Proof.Machine.execLdCFromB s
  | .ldCFromC => Sys2Proof.Machine.execLdCFromC s
  | .ldCFromD => Sys2Proof.Machine.execLdCFromD s
  | .ldCFromE => Sys2Proof.Machine.execLdCFromE s
  | .ldCFromH => Sys2Proof.Machine.execLdCFromH s
  | .ldCFromL => Sys2Proof.Machine.execLdCFromL s
  | .ldCFromHlMem => Sys2Proof.Machine.execLdCFromHlMem s
  | .ldCFromA => Sys2Proof.Machine.execLdCFromA s
  | .ldDFromB => Sys2Proof.Machine.execLdDFromB s
  | .ldDFromC => Sys2Proof.Machine.execLdDFromC s
  | .ldDFromD => Sys2Proof.Machine.execLdDFromD s
  | .ldDFromE => Sys2Proof.Machine.execLdDFromE s
  | .ldDFromH => Sys2Proof.Machine.execLdDFromH s
  | .ldDFromL => Sys2Proof.Machine.execLdDFromL s
  | .ldDFromHlMem => Sys2Proof.Machine.execLdDFromHlMem s
  | .ldDFromA => Sys2Proof.Machine.execLdDFromA s
  | .ldEFromB => Sys2Proof.Machine.execLdEFromB s
  | .ldEFromC => Sys2Proof.Machine.execLdEFromC s
  | .ldEFromD => Sys2Proof.Machine.execLdEFromD s
  | .ldEFromE => Sys2Proof.Machine.execLdEFromE s
  | .ldEFromH => Sys2Proof.Machine.execLdEFromH s
  | .ldEFromL => Sys2Proof.Machine.execLdEFromL s
  | .ldEFromHlMem => Sys2Proof.Machine.execLdEFromHlMem s
  | .ldEFromA => Sys2Proof.Machine.execLdEFromA s
  | .ldHFromB => Sys2Proof.Machine.execLdHFromB s
  | .ldHFromC => Sys2Proof.Machine.execLdHFromC s
  | .ldHFromD => Sys2Proof.Machine.execLdHFromD s
  | .ldHFromE => Sys2Proof.Machine.execLdHFromE s
  | .ldHFromH => Sys2Proof.Machine.execLdHFromH s
  | .ldHFromL => Sys2Proof.Machine.execLdHFromL s
  | .ldHFromHlMem => Sys2Proof.Machine.execLdHFromHlMem s
  | .ldHFromA => Sys2Proof.Machine.execLdHFromA s
  | .ldLFromB => Sys2Proof.Machine.execLdLFromB s
  | .ldLFromC => Sys2Proof.Machine.execLdLFromC s
  | .ldLFromD => Sys2Proof.Machine.execLdLFromD s
  | .ldLFromE => Sys2Proof.Machine.execLdLFromE s
  | .ldLFromH => Sys2Proof.Machine.execLdLFromH s
  | .ldLFromL => Sys2Proof.Machine.execLdLFromL s
  | .ldLFromHlMem => Sys2Proof.Machine.execLdLFromHlMem s
  | .ldLFromA => Sys2Proof.Machine.execLdLFromA s
  | .ldHlMemFromB => Sys2Proof.Machine.execLdHlMemFromB s
  | .ldHlMemFromC => Sys2Proof.Machine.execLdHlMemFromC s
  | .ldHlMemFromD => Sys2Proof.Machine.execLdHlMemFromD s
  | .ldHlMemFromE => Sys2Proof.Machine.execLdHlMemFromE s
  | .ldHlMemFromH => Sys2Proof.Machine.execLdHlMemFromH s
  | .ldHlMemFromL => Sys2Proof.Machine.execLdHlMemFromL s
  | .ldHlMemFromA => Sys2Proof.Machine.execLdHlMemFromA s
  | .ldAFromB => Sys2Proof.Machine.execLdAFromB s
  | .ldAFromC => Sys2Proof.Machine.execLdAFromC s
  | .ldAFromD => Sys2Proof.Machine.execLdAFromD s
  | .ldAFromE => Sys2Proof.Machine.execLdAFromE s
  | .ldAFromH => Sys2Proof.Machine.execLdAFromH s
  | .ldAFromL => Sys2Proof.Machine.execLdAFromL s
  | .ldAFromHlMem => Sys2Proof.Machine.execLdAFromHlMem s
  | .ldAFromA => Sys2Proof.Machine.execLdAFromA s
  | .xorB => Sys2Proof.Machine.execXorB s
  | .xorC => Sys2Proof.Machine.execXorC s
  | .xorD => Sys2Proof.Machine.execXorD s
  | .xorE => Sys2Proof.Machine.execXorE s
  | .xorH => Sys2Proof.Machine.execXorH s
  | .xorL => Sys2Proof.Machine.execXorL s
  | .xorHlMem => Sys2Proof.Machine.execXorHlMem s
  | .xorA => Sys2Proof.Machine.execXorA s
  | .pushBc => Sys2Proof.Machine.execPushBc s
  | .pushDe => Sys2Proof.Machine.execPushDe s
  | .ldhN8FromA n => Sys2Proof.Machine.execLdhN8FromA n s
  | .ldhCFromA => Sys2Proof.Machine.execLdhCFromA s
  | .pushHl => Sys2Proof.Machine.execPushHl s
  | .pushAf => Sys2Proof.Machine.execPushAf s
  | .bit0B => Sys2Proof.Machine.execBit0B s
  | .bit0C => Sys2Proof.Machine.execBit0C s
  | .bit0D => Sys2Proof.Machine.execBit0D s
  | .bit0E => Sys2Proof.Machine.execBit0E s
  | .bit0H => Sys2Proof.Machine.execBit0H s
  | .bit0L => Sys2Proof.Machine.execBit0L s
  | .bit0HlMem => Sys2Proof.Machine.execBit0HlMem s
  | .bit0A => Sys2Proof.Machine.execBit0A s
  | .bit1B => Sys2Proof.Machine.execBit1B s
  | .bit1C => Sys2Proof.Machine.execBit1C s
  | .bit1D => Sys2Proof.Machine.execBit1D s
  | .bit1E => Sys2Proof.Machine.execBit1E s
  | .bit1H => Sys2Proof.Machine.execBit1H s
  | .bit1L => Sys2Proof.Machine.execBit1L s
  | .bit1HlMem => Sys2Proof.Machine.execBit1HlMem s
  | .bit1A => Sys2Proof.Machine.execBit1A s
  | .bit2B => Sys2Proof.Machine.execBit2B s
  | .bit2C => Sys2Proof.Machine.execBit2C s
  | .bit2D => Sys2Proof.Machine.execBit2D s
  | .bit2E => Sys2Proof.Machine.execBit2E s
  | .bit2H => Sys2Proof.Machine.execBit2H s
  | .bit2L => Sys2Proof.Machine.execBit2L s
  | .bit2HlMem => Sys2Proof.Machine.execBit2HlMem s
  | .bit2A => Sys2Proof.Machine.execBit2A s
  | .bit3B => Sys2Proof.Machine.execBit3B s
  | .bit3C => Sys2Proof.Machine.execBit3C s
  | .bit3D => Sys2Proof.Machine.execBit3D s
  | .bit3E => Sys2Proof.Machine.execBit3E s
  | .bit3H => Sys2Proof.Machine.execBit3H s
  | .bit3L => Sys2Proof.Machine.execBit3L s
  | .bit3HlMem => Sys2Proof.Machine.execBit3HlMem s
  | .bit3A => Sys2Proof.Machine.execBit3A s
  | .bit4B => Sys2Proof.Machine.execBit4B s
  | .bit4C => Sys2Proof.Machine.execBit4C s
  | .bit4D => Sys2Proof.Machine.execBit4D s
  | .bit4E => Sys2Proof.Machine.execBit4E s
  | .bit4H => Sys2Proof.Machine.execBit4H s
  | .bit4L => Sys2Proof.Machine.execBit4L s
  | .bit4HlMem => Sys2Proof.Machine.execBit4HlMem s
  | .bit4A => Sys2Proof.Machine.execBit4A s
  | .bit5B => Sys2Proof.Machine.execBit5B s
  | .bit5C => Sys2Proof.Machine.execBit5C s
  | .bit5D => Sys2Proof.Machine.execBit5D s
  | .bit5E => Sys2Proof.Machine.execBit5E s
  | .bit5H => Sys2Proof.Machine.execBit5H s
  | .bit5L => Sys2Proof.Machine.execBit5L s
  | .bit5HlMem => Sys2Proof.Machine.execBit5HlMem s
  | .bit5A => Sys2Proof.Machine.execBit5A s
  | .bit6B => Sys2Proof.Machine.execBit6B s
  | .bit6C => Sys2Proof.Machine.execBit6C s
  | .bit6D => Sys2Proof.Machine.execBit6D s
  | .bit6E => Sys2Proof.Machine.execBit6E s
  | .bit6H => Sys2Proof.Machine.execBit6H s
  | .bit6L => Sys2Proof.Machine.execBit6L s
  | .bit6HlMem => Sys2Proof.Machine.execBit6HlMem s
  | .bit6A => Sys2Proof.Machine.execBit6A s
  | .bit7B => Sys2Proof.Machine.execBit7B s
  | .bit7C => Sys2Proof.Machine.execBit7C s
  | .bit7D => Sys2Proof.Machine.execBit7D s
  | .bit7E => Sys2Proof.Machine.execBit7E s
  | .bit7H => Sys2Proof.Machine.execBit7H s
  | .bit7L => Sys2Proof.Machine.execBit7L s
  | .bit7HlMem => Sys2Proof.Machine.execBit7HlMem s
  | .bit7A => Sys2Proof.Machine.execBit7A s

end Sys2Proof.Machine
end

