-- ==== Sys2Proof/Machine/Step.lean ====
section
/-! DEFINITION. One step of the machine at the instruction level (00_scope.md R12, log entry 1): from an instruction boundary, one whole
instruction; from inside an instruction, the rest of it. One M-cycle is `cycle` (Machine/Cycle.lean). -/
namespace Sys2Proof.Machine

/-- One step. A latched fault stands still (10_state.md R45). At a boundary: the poll (60_exceptions.md R270), the fetch, and the
fetched instruction's meaning. Inside an instruction (Stage is not `Fetch`) the M-cycles that remain of it, five at most, are
performed (40_stage_machine.md R152; log entry 10). -/
def step (s : State) : Host.Outcome State Fault Refusal :=
  if s.flt.isSome then .next s
  else if s.stage = .fetch then
    if s.polled then .next (s.tick.raise (.interruptDispatchUnimplemented s.pc))
    else
      match fetchInstr s with
      | .raised s1 => .next s1
      | .ok i s1 => exec i s1
  else finishInstr 5 s

/-- The state with the instruction of a table word stored where the next step fetches it: at PC, from outside the bus (the boot ROM is
loaded so, R70), with the machine at an instruction boundary, no fault latched and the poll off, so that the next step
fetches it (log entry 15). -/
def State.withFetchWord (s : State) (nbits w : Nat) : State :=
  { s with
    mem := s.mem.store s.pc.toNat (tableWordBytes nbits w)
    stage := .fetch
    flt := none
    ime := false }

end Sys2Proof.Machine
end

