-- ==== Sys2Proof/Machine/Ports.lean ====
section
/-! DEFINITION. The signal-level interface (00_scope.md R9): what the core drives in one M-cycle, what it shows between M-cycles, and the
two inputs that move it, `reset` and `step_en`. The bits `int_req` and `bus_rdata` enter through the bus and the poll. -/
namespace Sys2Proof.Machine

/-- The bus signals of one M-cycle: `bus_addr`, and `bus_rd` or `bus_wr` with `bus_wdata`. -/
inductive BusRequest where
  | read (addr : Word)
  | write (addr : Word) (data : Byte)
deriving DecidableEq, Repr

/-- `bus_err` (R9): none, UnmappedAddress or BootRomWrite for this M-cycle's access. -/
inductive BusError where
  | none
  | unmappedAddress
  | bootRomWrite
deriving DecidableEq, Repr

/-- The access a source descriptor's step makes (R132). -/
def Src.request : Src → Option BusRequest
  | .read8 a => some (.read a)
  | .read16 a => some (.read a)
  | .read16Hi a _ => some (.read a)
  | .none => Option.none
  | .val8 _ => Option.none
  | .val16 _ => Option.none

/-- The access a destination descriptor's step makes (R134). -/
def Dst.request : Dst → Option BusRequest
  | .write8 a v => some (.write a v)
  | .write16 a v => some (.write a (loByte v))
  | .write16Hi a hi => some (.write a hi)
  | .none => Option.none
  | .done => Option.none

/-- The one access, if any, that the M-cycle about to run puts on the bus (R9, R151). -/
def State.busRequest (s : State) : Option BusRequest :=
  if s.flt.isSome then none
  else
    match s.stage with
    | .fetch => if s.polled then none else some (.read s.pc)
    | .fetchPrefixed => some (.read s.pc)
    | .read src => src.request
    | .wait _ => none
    | .write dst => dst.request

/-- `bus_err` for an access (20_memory.md R77, R71). -/
def BusRequest.error : BusRequest → BusError
  | .read a => if regionOf a = none then .unmappedAddress else .none
  | .write a _ =>
    if regionOf a = none then .unmappedAddress
    else if regionOf a = some .bootRom then .bootRomWrite
    else .none

/-- `dbg_regs`: the six words, readable between M-cycles (R9, 60_exceptions.md R284). -/
def State.dbgRegs (s : State) : List Word :=
  [s.get16 .bc, s.get16 .de, s.get16 .hl, s.get16 .af, s.get16 .sp, s.get16 .pc]

/-- The fault output: the record of R260 field by field, a field not set for the kind being 0. -/
structure FaultOutput where
  kind : BitVec 3
  pc : Word
  opcode : Byte
  prefixed : Bool
  addr : Word
  isWrite : Bool
deriving DecidableEq, Repr

/-- A record on the fault output (R260; `isWrite` is set for kind 2 alone, log entry 20). -/
def FaultRecord.output : FaultRecord → FaultOutput
  | .unimplementedOpcode op pre pc => ⟨1, pc, op, pre, 0, false⟩
  | .unmappedAddress a w pc => ⟨2, pc, 0, false, a, w⟩
  | .invalidOperandIndex pc => ⟨3, pc, 0, false, 0, false⟩
  | .bootRomWrite a pc => ⟨4, pc, 0, false, a, false⟩
  | .interruptDispatchUnimplemented pc => ⟨5, pc, 0, false, 0, false⟩

/-- The `fault` output (R9): kind 0 while FLT is empty. -/
def State.faultOutput (s : State) : FaultOutput :=
  match s.flt with
  | some r => r.output
  | none => ⟨0, 0, 0, false, 0, false⟩

/-- One activation of the inputs: `reset` restores the reset state at any M-cycle boundary (70_reset_and_hazards.md R293), `step_en`
performs one M-cycle, and without either nothing changes (R9, R152). With both at once the reset wins and no M-cycle is performed: DESIGN
CHOICE, the spec gives no priority between the two (log entry 21). -/
def drive (reset stepEn : Bool) (s : State) : Host.Outcome State Fault Refusal :=
  if reset then .next s.applyReset
  else if stepEn then cycle s
  else .next s

end Sys2Proof.Machine
end

