-- ==== Sys2Proof/Machine/Timing.lean ====
section
/-! DEFINITION. The M-cycle table (40_stage_machine.md R150): how many M-cycles each form of each family takes, fetch included. -/
namespace Sys2Proof

/-- The count of R150; `taken` matters to `JR` alone. -/
def Family.mCycles (taken : Bool) : Family → Nat
  | .ldPairImm _ => 3
  | .ldMemA _ => 2
  | .ldAMem _ => 2
  | .xor (.reg _) => 1
  | .xor .mem => 2
  | .ldSlotSlot (.reg _) (.reg _) => 1
  | .ldSlotSlot (.reg _) .mem => 2
  | .ldSlotSlot .mem _ => 2
  | .ldhImmA => 3
  | .ldhCA => 2
  | .ldSlotImm (.reg _) => 2
  | .ldSlotImm .mem => 3
  | .incSlot (.reg _) => 1
  | .incSlot .mem => 3
  | .incPair _ => 2
  | .jr _ => if taken then 3 else 2
  | .push _ => 4
  | .bit _ (.reg _) => 2
  | .bit _ .mem => 3

end Sys2Proof
end

