-- ==== Sys2Proof/Safety.lean ====
section
/-! DEFINITION. The terms claims are stated in: what a safe run is, what an instruction that completes leaves, what a latched fault
leaves, the frame of an instruction, and the invariants of the machine. -/
namespace Sys2Proof.Machine

/-! ## Safe runs -/

/-- No fault is latched (70_reset_and_hazards.md R298: a run ends at the first step that latches a fault). -/
abbrev State.FaultFree (s : State) : Prop := s.flt = none

/-- A run of `k` steps in which nothing is latched and the model does not stop. -/
def SafeRun : Nat → State → Prop
  | 0, s => s.FaultFree
  | k + 1, s => s.FaultFree ∧ ∃ t, step s = .next t ∧ SafeRun k t

/-! ## What an instruction leaves -/

/-- The instruction is over, nothing new is latched, PC is `pc`, `cycles` M-cycles passed after its fetch, and they put `events` (newest
first) on the bus. -/
structure Completes (s t : State) (pc : Word) (cycles : Nat) (events : List BusEvent) : Prop where
  pc : t.pc = pc
  stage : t.stage = .fetch
  flt : t.flt = s.flt
  clock : t.clock = s.clock + cycles
  history : t.history = events ++ s.history

/-- The frame of the register file and the control state: every 8-bit register but those named keeps its value (F among them unless
named), SP is `sp`, and the latches OPC and PFX, IME and the parameter are untouched. -/
structure Leaves (s t : State) (but : List Reg8) (sp : Word) : Prop where
  regs : ∀ n, n ∉ but → t.get8 n = s.get8 n
  sp : t.sp = sp
  opc : t.opc = s.opc
  pfx : t.pfx = s.pfx
  ime : t.ime = s.ime
  inc8Flags : t.inc8Flags = s.inc8Flags

/-- The M-cycle latches record `r` with stage `st` and PC `pc`: the access does not happen, so bus history and memory are as before. -/
structure Latches (s t : State) (r : FaultRecord) (st : Stage) (pc : Word) : Prop where
  flt : t.flt = some r
  stage : t.stage = st
  pc : t.pc = pc
  clock : t.clock = s.clock + 1
  history : t.history = s.history
  mem : ∀ x, t.mem.read x = s.mem.read x

/-- Every byte of memory is as before. -/
def KeepsMemory (s t : State) : Prop := ∀ x, t.mem.read x = s.mem.read x

/-- The byte at `x` after byte `v` was written to bus address `a`: `v` at `a` itself when `a` is storage, else as before. -/
def storedAt (m : Memory) (a : Word) (v : Byte) (x : Nat) : Byte := if x = a.toNat ∧ isStorage x then v else m.read x

/-- The halves of the pair an r16 selector names: what writing it can change among the 8-bit names. -/
def pairHalves : PairSel → List Reg8
  | .bc => [.b, .c]
  | .de => [.d, .e]
  | .hl => [.h, .l]
  | .sp => []

/-- The bus events of fetching `bytes` from address `a` up, newest first (20_memory.md R65, R80). -/
def fetchEvents (a : Word) : List Byte → List BusEvent
  | [] => []
  | b :: bs => fetchEvents (a + 1) bs ++ [.read a b]

/-- Does a jump of this family branch in this state? Only `JR` asks (10_state.md R33). -/
def familyTakes (f : Family) (s : State) : Bool :=
  match f with
  | .jr cc => s.f.test cc
  | _ => false

/-- An outcome's next state changed by `g`; a stop is kept. -/
def mapNext (g : State → State) : Host.Outcome State Fault Refusal → Host.Outcome State Fault Refusal
  | .next s => .next (g s)
  | .fault r => .fault r
  | .refused r => .refused r

/-! ## Invariants -/

/-- A boundary with nothing latched and no interrupt condition: where the next step fetches. -/
abbrev State.Ready (s : State) : Prop := s.flt = none ∧ s.stage = .fetch ∧ s.polled = false

/-- The form of the stage between M-cycles (10_state.md R44): never a ready source, never a finished destination but the idle one. -/
def Stage.wellFormed : Stage → Bool
  | .fetch => true
  | .fetchPrefixed => true
  | .read src => src.value? == none
  | .wait dst => !dst.isDone
  | .write dst => !dst.isDone || dst == .none

/-- Memory is in canonical form, lists storage addresses only, and the stage is well formed. -/
structure State.Inv (s : State) : Prop where
  canonical : s.mem.wf
  storage : ∀ c ∈ s.mem, isStorage c.1 = true
  stage : s.stage.wellFormed = true

/-- Does a family form this kind of source (40_stage_machine.md R149)? -/
def familyForms (f : Family) : Src → Bool
  | .read16 _ => match f with | .ldPairImm _ => true | _ => false
  | .read16Hi _ _ => match f with | .ldPairImm _ => true | _ => false
  | .read8 _ =>
    match f with
    | .ldAMem _ => true
    | .xor .mem => true
    | .ldSlotSlot (.reg _) .mem => true
    | .ldhImmA => true
    | .ldSlotImm _ => true
    | .incSlot .mem => true
    | .jr _ => true
    | .bit _ .mem => true
    | _ => false
  | _ => false

/-- In a `Read` stage the latches select a family that forms such a source: what makes `Execute` "cannot fail" (R142). -/
def State.latchesAgree (s : State) : Bool :=
  match s.stage with
  | .read src =>
    match familyOf s.pfx s.opc with
    | some f => familyForms f src
    | none => false
  | _ => true

end Sys2Proof.Machine
end

