-- ==== Sys2Proof/Certificates/Slice0/Obligations.lean ====
section
/-! DEFINITION. The statements about the model. Each docstring names the rules of spec/ it rests on; the hypotheses of each are met
by a named witness in Sys2Proof/Tests/Slice0.lean. -/

open Sys2Proof Sys2Proof.Machine

/-! ## Encoding -/

/-- Words written out from the encodings of 30_encoding.md R104, R112, R113, R119, R120 decode to what they stand for. -/
def Obligations.DecodeReadsSpecWords : Prop :=
  decode [0x01, 0x34, 0x12] = .ok (.ldBcN16 0x1234, []) ∧
  decode [0x22] = .ok (.ldHlIncFromA, []) ∧
  decode [0x3A, 0x00] = .ok (.ldAFromHlDec, [0x00]) ∧
  decode [0xAF] = .ok (.xorA, []) ∧
  decode [0x41] = .ok (.ldBFromC, []) ∧
  decode [0xE0, 0x80] = .ok (.ldhN8FromA 0x80, []) ∧
  decode [0xE2] = .ok (.ldhCFromA, []) ∧
  decode [0x36, 0x99] = .ok (.ldHlMemN8 0x99, []) ∧
  decode [0x34] = .ok (.incHlMem, []) ∧
  decode [0x33] = .ok (.incSp, []) ∧
  decode [0x28, 0x05] = .ok (.jrZ 0x05, []) ∧
  decode [0xF5] = .ok (.pushAf, []) ∧
  decode [0xCB, 0x7C] = .ok (.bit7H, []) ∧
  decode [0x76] = .error (.unimplementedOpcode 0x76 false) ∧
  decode [0xCB, 0x37] = .error (.unimplementedOpcode 0x37 true)

/-- Decoding an encoded instruction gives it back, whatever bytes follow (R100, R104, R114). -/
def Obligations.DecodeEncodeRoundTrip : Prop :=
  ∀ (i : Instr) (rest : List Byte), i.wf = true → decode (encode i ++ rest) = .ok (i, rest)

/-- What decodes was an encoding: no byte list decodes to an instruction but its own encoding, so no bit is ignored. -/
def Obligations.EncodeDecodeRoundTrip : Prop :=
  ∀ (bytes rest : List Byte) (i : Instr), decode bytes = .ok (i, rest) → bytes = encode i ++ rest

/-- The twelve unprefixed patterns are pairwise disjoint, the first that takes a byte gives its family, and so does any that takes it:
the priority order has no observable effect (30_encoding.md R102, which the spec marks as derived). -/
def Obligations.PatternOrderIsUnobservable : Prop :=
  unprefixedPatterns.length = 12 ∧
  unprefixedPatterns.Pairwise (fun p q => ∀ b : Byte, ¬ (p.takes b = true ∧ q.takes b = true)) ∧
  (∀ b : Byte, familyOf false b = (unprefixedPatterns.find? (fun p => p.takes b)).map (fun p => p.family b)) ∧
  (∀ (b : Byte) (p : Pattern), p ∈ unprefixedPatterns → p.takes b = true → familyOf false b = some (p.family b))

/-- The bytes R250 lists: the unprefixed opcodes that are no instruction. -/
def listedUnimplemented (b : Byte) : Prop :=
  b.toNat ∈ [0x00, 0x05, 0x07, 0x08, 0x09, 0x0B, 0x0D, 0x0F, 0x10, 0x15, 0x17, 0x18, 0x19, 0x1B, 0x1D, 0x1F, 0x25, 0x27,
    0x29, 0x2B, 0x2D, 0x2F, 0x35, 0x37, 0x39, 0x3B, 0x3D, 0x3F, 0x76, 0xE1, 0xE3, 0xE4] ∨
  (0x80 ≤ b.toNat ∧ b.toNat ≤ 0xA7) ∨ (0xB0 ≤ b.toNat ∧ b.toNat ≤ 0xC4) ∨ (0xC6 ≤ b.toNat ∧ b.toNat ≤ 0xCA) ∨
  (0xCC ≤ b.toNat ∧ b.toNat ≤ 0xD4) ∨ (0xD6 ≤ b.toNat ∧ b.toNat ≤ 0xDF) ∨ (0xE6 ≤ b.toNat ∧ b.toNat ≤ 0xEF) ∨
  (0xF0 ≤ b.toNat ∧ b.toNat ≤ 0xF4) ∨ (0xF6 ≤ b.toNat ∧ b.toNat ≤ 0xFF)

/-- The unimplemented bytes are those that R250 lists, and of the prefixed table those outside 0x40 to 0x7F (R115, R251). -/
def Obligations.UnimplementedBytesAreListed : Prop :=
  (∀ b : Byte, b ≠ 0xCB → (familyOf false b = none ↔ listedUnimplemented b)) ∧
  (∀ b : Byte, familyOf true b = none ↔ b.toNat < 0x40 ∨ 0x80 ≤ b.toNat)

/-! ## Register file -/

/-- The four pairs with named halves (10_state.md R23). -/
def pairsWithHalves : List (Reg16 × Reg8 × Reg8) := [(.bc, .b, .c), (.de, .d, .e), (.hl, .h, .l), (.af, .a, .f)]

/-- A write through either name is seen through the other (R26); of AF, bits 3:0 read 0 (R30; the mechanism is the spec's own
decision D17, log entry 9). -/
def Obligations.RegisterHalvesAliasTheirPair : Prop :=
  ∀ (p : Reg16) (hi lo : Reg8) (s : State) (h l : Byte) (v : Word), (p, hi, lo) ∈ pairsWithHalves →
    (((s.set8 hi h).set8 lo l).get16 p).toNat = h.toNat * 256 + (if p = .af then (l &&& 0xF0).toNat else l.toNat) ∧
    ((s.set16 p v).get8 hi).toNat = v.toNat / 256 ∧
    ((s.set16 p v).get8 lo).toNat = if p = .af then v.toNat % 256 / 16 * 16 else v.toNat % 256

/-- A write to any name changes bits of exactly one of the six words, and an 8-bit write only its own half (R25, R27). -/
def Obligations.RegisterWritesStaySeparate : Prop :=
  ∀ (p : Reg16) (hi lo : Reg8) (s : State) (b : Byte) (v : Word), (p, hi, lo) ∈ pairsWithHalves →
    (∀ q, q ≠ p → (s.set8 hi b).get16 q = s.get16 q ∧ (s.set8 lo b).get16 q = s.get16 q) ∧
    (s.set8 hi b).get8 lo = s.get8 lo ∧ (s.set8 lo b).get8 hi = s.get8 hi ∧
    (∀ p' q : Reg16, q ≠ p' → (s.set16 p' v).get16 q = s.get16 q)

/-- F holds Z, N, H, C in bits 7 to 4 and its bits 3:0 are always zero, whatever is written to F or AF (R30;
that a write stores its bits 7 to 4 is the spec's own decision D17). -/
def Obligations.FlagRegisterLowBitsAreZero : Prop :=
  ∀ (s : State) (b : Byte) (v : Word),
    (s.get8 .f).getLsbD 7 = s.f.z ∧ (s.get8 .f).getLsbD 6 = s.f.n ∧ (s.get8 .f).getLsbD 5 = s.f.h ∧
    (s.get8 .f).getLsbD 4 = s.f.c ∧ s.get8 .f &&& 0x0F = 0 ∧
    (s.get16 .af).getLsbD 7 = s.f.z ∧ (s.get16 .af).getLsbD 6 = s.f.n ∧ (s.get16 .af).getLsbD 5 = s.f.h ∧
    (s.get16 .af).getLsbD 4 = s.f.c ∧ s.get16 .af &&& 0x000F = 0 ∧
    (s.set8 .f b).get8 .f = b &&& 0xF0 ∧ (s.set16 .af v).get16 .af = v &&& 0xFFF0

/-- `add16` and `sub16` answer the pre-update and the post-update value, and wrap modulo 65536 (R28); of AF the four low bits are then
forced to 0 (the spec's own decision D17). -/
def Obligations.PairArithmeticWraps : Prop :=
  ∀ (s : State) (p : Reg16) (d : Word),
    (s.add16 p d).1 = s.get16 p ∧ (s.add16 p d).2.1 = (s.add16 p d).2.2.get16 p ∧
    (s.sub16 p d).1 = s.get16 p ∧ (s.sub16 p d).2.1 = (s.sub16 p d).2.2.get16 p ∧
    (if p = .af then
      (s.add16 p d).2.1 = (s.get16 p + d) &&& 0xFFF0 ∧ (s.sub16 p d).2.1 = (s.get16 p - d) &&& 0xFFF0
    else
      ((s.add16 p d).2.1).toNat = ((s.get16 p).toNat + d.toNat) % 65536 ∧
      ((s.sub16 p d).2.1).toNat = ((s.get16 p).toNat + 65536 - d.toNat) % 65536)

/-! ## Bus -/

/-- Every address has at most one row of the region table, the owner the table prints for its range, and none exactly in the ranges of
20_memory.md R77, which the spec marks as derived from the table (R69). -/
def Obligations.AddressMapIsAPartition : Prop :=
  ∀ a : Word,
    (∀ r r', r ∈ regionTable → r' ∈ regionTable → r.holds a.toNat = true → r'.holds a.toNat = true → r = r') ∧
    (regionOf a = some .bootRom ↔ a.toNat ≤ 0x00FF) ∧
    (regionOf a = some .vram ↔ 0x8000 ≤ a.toNat ∧ a.toNat ≤ 0x9FFF) ∧
    (regionOf a = some .workRam ↔ 0xC000 ≤ a.toNat ∧ a.toNat ≤ 0xDFFF) ∧
    (regionOf a = some .oam ↔ 0xFE00 ≤ a.toNat ∧ a.toNat ≤ 0xFE9F) ∧
    (regionOf a = some .joypad ↔ a.toNat = 0xFF00) ∧
    (regionOf a = some .audio ↔ 0xFF10 ≤ a.toNat ∧ a.toNat ≤ 0xFF3F) ∧
    (regionOf a = some .graphicsControl ↔ 0xFF40 ≤ a.toNat ∧ a.toNat ≤ 0xFF4B) ∧
    (regionOf a = some .highRam ↔ 0xFF80 ≤ a.toNat ∧ a.toNat ≤ 0xFFFE) ∧
    (regionOf a = some .interruptEnable ↔ a.toNat = 0xFFFF) ∧
    (regionOf a = none ↔
      (0x0100 ≤ a.toNat ∧ a.toNat ≤ 0x7FFF) ∨ (0xA000 ≤ a.toNat ∧ a.toNat ≤ 0xBFFF) ∨
      (0xE000 ≤ a.toNat ∧ a.toNat ≤ 0xFDFF) ∨ (0xFEA0 ≤ a.toNat ∧ a.toNat ≤ 0xFEFF) ∨
      (0xFF01 ≤ a.toNat ∧ a.toNat ≤ 0xFF0F) ∨ (0xFF4C ≤ a.toNat ∧ a.toNat ≤ 0xFF7F))

/-- `BusRead` (R62): an address in no region raises `UnmappedAddress`; any other answers the region's byte (a storage byte, or the
device's draw) and appends the event, changing nothing else. -/
def Obligations.BusReadFollowsTheTable : Prop :=
  ∀ (a : Word) (s : State),
    (regionOf a = none → busRead a s = .raised { s with flt := some (.unmappedAddress a false s.pc) }) ∧
    (∀ r, regionOf a = some r →
      ∃ v, busRead a s = .ok v { s with history := .read a v :: s.history } ∧
        v = if r.isDevice then Config.periphRead s.history a else s.mem.read a.toNat)

/-- `BusWrite` (R63): unmapped and boot-ROM addresses raise their faults and store nothing; a storage address takes the byte and every
other byte keeps its value; a device takes it and no byte changes; the event is appended. -/
def Obligations.BusWriteFollowsTheTable : Prop :=
  ∀ (a : Word) (v : Byte) (s : State),
    (regionOf a = none → busWrite a v s = .raised { s with flt := some (.unmappedAddress a true s.pc) }) ∧
    (regionOf a = some .bootRom → busWrite a v s = .raised { s with flt := some (.bootRomWrite a s.pc) }) ∧
    (∀ r, regionOf a = some r → r ≠ .bootRom →
      ∃ m, busWrite a v s = .ok () { s with mem := m, history := .write a v :: s.history } ∧
        ∀ x, m.read x = if x = a.toNat ∧ r.isDevice = false then v else s.mem.read x)

/-- A read of a storage address returns the byte of the most recent write to it, and no other storage byte is touched by that write
(R73, R80): data and instruction bytes alike, since a fetch is such a read (R83). That
VRAM, OAM and IE are storage is the spec's own decision (D14, D16; log entry 12). -/
def Obligations.ReadReturnsLastWrite : Prop :=
  ∀ (a b : Word) (v : Byte) (s t : State), busWrite a v s = .ok () t → isStorage b.toNat = true →
    busRead b t = .ok (if b = a then v else s.mem.read b.toNat)
      { t with history := .read b (if b = a then v else s.mem.read b.toNat) :: t.history }

/-! ## The instructions: result, frame and completion -/

/-- `LD r16,n16` (42_loads_16bit_stack.md R200). -/
def Obligations.LoadPairImmediateResult : Prop :=
  ∀ (p : PairSel) (n : Word) (s : State), ∃ t, exec (Form.ldPairImm p n) s = .next t ∧
    t.get16 p.reg16 = n ∧ Leaves s t (pairHalves p) (if p = .sp then n else s.sp) ∧ KeepsMemory s t ∧
    Completes s t (s.pc + 3) 0 []

/-- `LD [BC],A` and `LD [DE],A` (41_loads_8bit.md R172). -/
def Obligations.StoreAThroughPairResult : Prop :=
  ∀ (m : MemSel) (p : Reg16) (s : State), (m, p) ∈ [(MemSel.bc, Reg16.bc), (MemSel.de, Reg16.de)] →
    Writable (s.get16 p) → ∃ t, exec (Form.storeA m) s = .next t ∧
      (∀ x, t.mem.read x = storedAt s.mem (s.get16 p) (s.get8 .a) x) ∧ Leaves s t [] s.sp ∧
      Completes s t (s.pc + 1) 1 [.write (s.get16 p) (s.get8 .a)]

/-- `LD [HL+],A` and `LD [HL-],A` (R173, R174): the old HL is the address, HL moves by one modulo 65536 (the spec's D10). -/
def Obligations.StoreAThroughHlResult : Prop :=
  ∀ (m : MemSel) (d : Word) (s : State), (m, d) ∈ [(MemSel.hlInc, (1 : Word)), (MemSel.hlDec, 0xFFFF)] →
    Writable (s.get16 .hl) → ∃ t, exec (Form.storeA m) s = .next t ∧
      t.get16 .hl = s.get16 .hl + d ∧
      (∀ x, t.mem.read x = storedAt s.mem (s.get16 .hl) (s.get8 .a) x) ∧ Leaves s t [.h, .l] s.sp ∧
      Completes s t (s.pc + 1) 1 [.write (s.get16 .hl) (s.get8 .a)]

/-- `LD A,[BC]` and `LD A,[DE]` (R175). -/
def Obligations.LoadAThroughPairResult : Prop :=
  ∀ (m : MemSel) (p : Reg16) (s : State), (m, p) ∈ [(MemSel.bc, Reg16.bc), (MemSel.de, Reg16.de)] →
    Readable (s.get16 p) → ∃ t, exec (Form.loadA m) s = .next t ∧
      t.get8 .a = s.busByte (s.get16 p) ∧ Leaves s t [.a] s.sp ∧ KeepsMemory s t ∧
      Completes s t (s.pc + 1) 1 [.read (s.get16 p) (s.busByte (s.get16 p))]

/-- `LD A,[HL+]` and `LD A,[HL-]` (R176, R177): the byte at the old HL, HL moves by one modulo 65536. -/
def Obligations.LoadAThroughHlResult : Prop :=
  ∀ (m : MemSel) (d : Word) (s : State), (m, d) ∈ [(MemSel.hlInc, (1 : Word)), (MemSel.hlDec, 0xFFFF)] →
    Readable (s.get16 .hl) → ∃ t, exec (Form.loadA m) s = .next t ∧
      t.get8 .a = s.busByte (s.get16 .hl) ∧ t.get16 .hl = s.get16 .hl + d ∧
      Leaves s t [.a, .h, .l] s.sp ∧ KeepsMemory s t ∧
      Completes s t (s.pc + 1) 1 [.read (s.get16 .hl) (s.busByte (s.get16 .hl))]

/-- `LD r8,r8'` (R179), all 49, the seven that copy a register to itself among them (30_encoding.md R117). -/
def Obligations.CopyRegisterResult : Prop :=
  ∀ (dst src : SlotReg) (s : State), ∃ t, exec (Form.copyReg dst src) s = .next t ∧
    t.get8 dst.reg8 = s.get8 src.reg8 ∧ Leaves s t [dst.reg8] s.sp ∧ KeepsMemory s t ∧ Completes s t (s.pc + 1) 0 []

/-- `LD r8,[HL]` (R180): the address is HL before H or L is replaced. -/
def Obligations.LoadRegisterFromMemoryResult : Prop :=
  ∀ (dst : SlotReg) (s : State), Readable (s.get16 .hl) → ∃ t, exec (Form.loadReg dst) s = .next t ∧
    t.get8 dst.reg8 = s.busByte (s.get16 .hl) ∧ Leaves s t [dst.reg8] s.sp ∧ KeepsMemory s t ∧
    Completes s t (s.pc + 1) 1 [.read (s.get16 .hl) (s.busByte (s.get16 .hl))]

/-- `LD [HL],r8` (R181). -/
def Obligations.StoreRegisterToMemoryResult : Prop :=
  ∀ (src : SlotReg) (s : State), Writable (s.get16 .hl) → ∃ t, exec (Form.storeReg src) s = .next t ∧
    (∀ x, t.mem.read x = storedAt s.mem (s.get16 .hl) (s.get8 src.reg8) x) ∧ Leaves s t [] s.sp ∧
    Completes s t (s.pc + 1) 1 [.write (s.get16 .hl) (s.get8 src.reg8)]

/-- `LD r8,n8` (R182). -/
def Obligations.LoadRegisterImmediateResult : Prop :=
  ∀ (dst : SlotReg) (n : Byte) (s : State), ∃ t, exec (Form.immReg dst n) s = .next t ∧
    t.get8 dst.reg8 = n ∧ Leaves s t [dst.reg8] s.sp ∧ KeepsMemory s t ∧ Completes s t (s.pc + 2) 0 []

/-- `LD [HL],n8` (R183). -/
def Obligations.StoreImmediateToMemoryResult : Prop :=
  ∀ (n : Byte) (s : State), Writable (s.get16 .hl) → ∃ t, exec (.ldHlMemN8 n) s = .next t ∧
    (∀ x, t.mem.read x = storedAt s.mem (s.get16 .hl) n x) ∧ Leaves s t [] s.sp ∧
    Completes s t (s.pc + 2) 1 [.write (s.get16 .hl) n]

/-- `LDH [n8],A` and `LDH [C],A` (R184, R185): A to 0xFF00 plus the offset, which never carries out of 16 bits (20_memory.md R79). -/
def Obligations.HighPageStoreResult : Prop :=
  ∀ (i : Instr) (off : Byte) (len : Word) (s : State),
    (i = .ldhN8FromA off ∧ len = 2) ∨ (i = .ldhCFromA ∧ off = s.get8 .c ∧ len = 1) →
    Writable (BitVec.ofNat 16 (0xFF00 + off.toNat)) → ∃ t, exec i s = .next t ∧
      (∀ x, t.mem.read x = storedAt s.mem (BitVec.ofNat 16 (0xFF00 + off.toNat)) (s.get8 .a) x) ∧ Leaves s t [] s.sp ∧
      Completes s t (s.pc + len) 1 [.write (BitVec.ofNat 16 (0xFF00 + off.toNat)) (s.get8 .a)]

/-- `XOR A,r8` (43_alu_inc.md R210): every bit of A, all four flags; `XOR A,A` among the forms. -/
def Obligations.XorRegisterResult : Prop :=
  ∀ (r : SlotReg) (s : State), ∃ t, exec (Form.xorReg r) s = .next t ∧
    (∀ k < 8, (t.get8 .a).getLsbD k = ((s.get8 .a).getLsbD k ^^ (s.get8 r.reg8).getLsbD k)) ∧
    (t.f.z = true ↔ (t.get8 .a).toNat = 0) ∧ t.f.n = false ∧ t.f.h = false ∧ t.f.c = false ∧
    Leaves s t [.a, .f] s.sp ∧ KeepsMemory s t ∧ Completes s t (s.pc + 1) 0 []

/-- `XOR A,[HL]` (R211). -/
def Obligations.XorMemoryResult : Prop :=
  ∀ s : State, Readable (s.get16 .hl) → ∃ t, exec .xorHlMem s = .next t ∧
    (∀ k < 8, (t.get8 .a).getLsbD k = ((s.get8 .a).getLsbD k ^^ (s.busByte (s.get16 .hl)).getLsbD k)) ∧
    (t.f.z = true ↔ (t.get8 .a).toNat = 0) ∧ t.f.n = false ∧ t.f.h = false ∧ t.f.c = false ∧
    Leaves s t [.a, .f] s.sp ∧ KeepsMemory s t ∧
    Completes s t (s.pc + 1) 1 [.read (s.get16 .hl) (s.busByte (s.get16 .hl))]

/-- The flags after an 8-bit increment of `old`, for both settings of the open parameter INC8_FLAGS (R213, the spec's
own decision D7; log entry 4). -/
def incFlagsRule (s t : State) (old : Byte) : Prop :=
  (s.inc8Flags = .znh →
    (t.f.z = true ↔ old.toNat = 0xFF) ∧ t.f.n = false ∧ (t.f.h = true ↔ old.toNat % 16 = 0xF) ∧ t.f.c = s.f.c) ∧
  (s.inc8Flags = .unchanged → t.f = s.f)

/-- `INC r8` (R213, R214): the named half alone, wrapping modulo 256. -/
def Obligations.IncRegisterResult : Prop :=
  ∀ (r : SlotReg) (s : State), ∃ t, exec (Form.incReg r) s = .next t ∧
    (t.get8 r.reg8).toNat = ((s.get8 r.reg8).toNat + 1) % 256 ∧ incFlagsRule s t (s.get8 r.reg8) ∧
    Leaves s t [r.reg8, .f] s.sp ∧ KeepsMemory s t ∧ Completes s t (s.pc + 1) 0 []

/-- `INC [HL]` (R213, R215): a read and a write of the same address. -/
def Obligations.IncMemoryResult : Prop :=
  ∀ s : State, Writable (s.get16 .hl) → ∃ t, exec .incHlMem s = .next t ∧
    (∀ x, t.mem.read x = storedAt s.mem (s.get16 .hl) (s.busByte (s.get16 .hl) + 1) x) ∧
    incFlagsRule s t (s.busByte (s.get16 .hl)) ∧ Leaves s t [.f] s.sp ∧
    Completes s t (s.pc + 1) 2
      [.write (s.get16 .hl) (s.busByte (s.get16 .hl) + 1), .read (s.get16 .hl) (s.busByte (s.get16 .hl))]

/-- `INC r16` (R218): 16 bits wide, wrapping, no flag, and one idle M-cycle, which is the spec's own decision D9 (log entry
18). -/
def Obligations.IncPairResult : Prop :=
  ∀ (p : PairSel) (s : State), ∃ t, exec (Form.incPair p) s = .next t ∧
    (t.get16 p.reg16).toNat = ((s.get16 p.reg16).toNat + 1) % 65536 ∧
    Leaves s t (pairHalves p) (if p = .sp then s.sp + 1 else s.sp) ∧ KeepsMemory s t ∧ Completes s t (s.pc + 1) 1 []

/-- The condition of `JR cc,e8`, row by row (30_encoding.md R112). -/
def jrTaken (cc : Cond) (s : State) : Prop :=
  match cc with
  | .nz => s.f.z = false
  | .z => s.f.z = true
  | .nc => s.f.c = false
  | .c => s.f.c = true

/-- `JR cc,e8` (44_jumps.md R230): taken, PC is the next instruction's address plus the signed displacement, modulo 65536, after one
idle M-cycle (the spec's own decision D9, log entry 18; the opcodes and conditions are its decision D18, log entry 13); not taken, PC is the next instruction's address. No flag, register or memory changes. -/
def Obligations.JumpRelativeResult : Prop :=
  ∀ (cc : Cond) (e : Byte) (s : State), ∃ (t : State) (target : Word), exec (Form.jr cc e) s = .next t ∧
    Leaves s t [] s.sp ∧ KeepsMemory s t ∧
    (jrTaken cc s → (target.toNat : Int) = ((s.pc.toNat : Int) + 2 + e.toInt) % 65536 ∧ Completes s t target 1 []) ∧
    (¬ jrTaken cc s → target.toNat = (s.pc.toNat + 2) % 65536 ∧ Completes s t target 0 [])

/-- `PUSH r16` (R201): SP drops by two, the low byte goes to the new SP and then the high byte to the address above it. The pairs, the
byte order on the bus and the idle M-cycle are the spec's own decisions D8 and D9 (log entries 13 and 18). -/
def Obligations.PushResult : Prop :=
  ∀ (p : StackSel) (s : State), Writable (s.sp - 2) → Writable (s.sp - 1) → ∃ t, exec (Form.push p) s = .next t ∧
    (∀ x, t.mem.read x =
      if x = (s.sp - 2).toNat ∧ isStorage x then BitVec.ofNat 8 (s.get16 p.reg16).toNat
      else storedAt s.mem (s.sp - 1) (BitVec.ofNat 8 ((s.get16 p.reg16).toNat / 256)) x) ∧
    Leaves s t [] (s.sp - 2) ∧
    Completes s t (s.pc + 1) 3
      [.write (s.sp - 1) (BitVec.ofNat 8 ((s.get16 p.reg16).toNat / 256)),
        .write (s.sp - 2) (BitVec.ofNat 8 (s.get16 p.reg16).toNat)]

/-- The flags after `BIT n3` of the byte `v` (45_prefixed_bit.md R240). -/
def bitFlagsRule (s t : State) (n : BitNum) (v : Byte) : Prop :=
  (t.f.z = true ↔ v.toNat / 2 ^ n.toNat % 2 = 0) ∧ t.f.n = false ∧ t.f.h = true ∧ t.f.c = s.f.c

/-- `BIT n3,r8` (R240), all 56: only Z, N, H and PC change. PC is past the prefix when the meaning starts. -/
def Obligations.BitRegisterResult : Prop :=
  ∀ (n : BitNum) (r : SlotReg) (s : State), ∃ t, exec (Form.bitReg n r) s = .next t ∧
    bitFlagsRule s t n (s.get8 r.reg8) ∧ Leaves s t [.f] s.sp ∧ KeepsMemory s t ∧ Completes s t (s.pc + 1) 0 []

/-- `BIT n3,[HL]` (R241), all eight. -/
def Obligations.BitMemoryResult : Prop :=
  ∀ (n : BitNum) (s : State), Readable (s.get16 .hl) → ∃ t, exec (Form.bitMem n) s = .next t ∧
    bitFlagsRule s t n (s.busByte (s.get16 .hl)) ∧ Leaves s t [.f] s.sp ∧ KeepsMemory s t ∧
    Completes s t (s.pc + 1) 1 [.read (s.get16 .hl) (s.busByte (s.get16 .hl))]

/-! ## Faults -/

/-- A data read of an unmapped address (60_exceptions.md R262): `UnmappedAddress` is latched in that M-cycle; no register has changed,
but HL for the `[HL+]` and `[HL-]` forms. What survives the fault is the spec's own decision (D6, D11; log entry 2). -/
def Obligations.DataReadFaultIsLatched : Prop :=
  ∀ s : State,
    (∀ (m : MemSel) (p : Reg16), (m, p) ∈ [(MemSel.bc, Reg16.bc), (MemSel.de, Reg16.de)] → regionOf (s.get16 p) = none →
      ∃ t, exec (Form.loadA m) s = .next t ∧ Leaves s t [] s.sp ∧
        Latches s t (.unmappedAddress (s.get16 p) false s.pc) (.read (.read8 (s.get16 p))) s.pc) ∧
    (regionOf (s.get16 .hl) = none →
      (∀ (m : MemSel) (d : Word), (m, d) ∈ [(MemSel.hlInc, (1 : Word)), (MemSel.hlDec, 0xFFFF)] →
        ∃ t, exec (Form.loadA m) s = .next t ∧ Leaves s t [.h, .l] s.sp ∧ t.get16 .hl = s.get16 .hl + d ∧
          Latches s t (.unmappedAddress (s.get16 .hl) false s.pc) (.read (.read8 (s.get16 .hl))) s.pc) ∧
      (∀ i : Instr, i = .xorHlMem ∨ i = .incHlMem ∨ (∃ r, i = Form.loadReg r) ∨ (∃ n, i = Form.bitMem n) →
        ∃ t, exec i s = .next t ∧ Leaves s t [] s.sp ∧
          Latches s t (.unmappedAddress (s.get16 .hl) false s.pc) (.read (.read8 (s.get16 .hl))) s.pc))

/-- What a write to an address that takes none raises (R262, R264), PC being `pc` then; none for a writable address. -/
def writeFault (a pc : Word) : Option FaultRecord :=
  match regionOf a with
  | none => some (.unmappedAddress a true pc)
  | some .bootRom => some (.bootRomWrite a pc)
  | some _ => none

/-- A one-byte data write to an unmapped address or the boot ROM (R262, R264): the fault is latched in the write M-cycle, nothing is
stored, and everything the instruction did before is kept, PC and HL moved: the spec's own decisions D5, D11 and D15 (log entry 2). -/
def Obligations.DataWriteFaultIsLatched : Prop :=
  ∀ (s : State) (r : FaultRecord),
    (∀ (m : MemSel) (p : Reg16), (m, p) ∈ [(MemSel.bc, Reg16.bc), (MemSel.de, Reg16.de)] →
      writeFault (s.get16 p) (s.pc + 1) = some r →
      ∃ t, exec (Form.storeA m) s = .next t ∧ Leaves s t [] s.sp ∧
        Latches s t r (.write (.write8 (s.get16 p) (s.get8 .a))) (s.pc + 1)) ∧
    (∀ (m : MemSel) (d : Word), (m, d) ∈ [(MemSel.hlInc, (1 : Word)), (MemSel.hlDec, 0xFFFF)] →
      writeFault (s.get16 .hl) (s.pc + 1) = some r →
      ∃ t, exec (Form.storeA m) s = .next t ∧ Leaves s t [.h, .l] s.sp ∧ t.get16 .hl = s.get16 .hl + d ∧
        Latches s t r (.write (.write8 (s.get16 .hl) (s.get8 .a))) (s.pc + 1)) ∧
    (∀ src : SlotReg, writeFault (s.get16 .hl) (s.pc + 1) = some r →
      ∃ t, exec (Form.storeReg src) s = .next t ∧ Leaves s t [] s.sp ∧
        Latches s t r (.write (.write8 (s.get16 .hl) (s.get8 src.reg8))) (s.pc + 1)) ∧
    (∀ n : Byte, writeFault (s.get16 .hl) (s.pc + 2) = some r →
      ∃ t, exec (.ldHlMemN8 n) s = .next t ∧ Leaves s t [] s.sp ∧
        Latches s t r (.write (.write8 (s.get16 .hl) n)) (s.pc + 2)) ∧
    (∀ n : Byte, writeFault (BitVec.ofNat 16 (0xFF00 + n.toNat)) (s.pc + 2) = some r →
      ∃ t, exec (.ldhN8FromA n) s = .next t ∧ Leaves s t [] s.sp ∧
        Latches s t r (.write (.write8 (BitVec.ofNat 16 (0xFF00 + n.toNat)) (s.get8 .a))) (s.pc + 2)) ∧
    (writeFault (BitVec.ofNat 16 (0xFF00 + (s.get8 .c).toNat)) (s.pc + 1) = some r →
      ∃ t, exec .ldhCFromA s = .next t ∧ Leaves s t [] s.sp ∧
        Latches s t r (.write (.write8 (BitVec.ofNat 16 (0xFF00 + (s.get8 .c).toNat)) (s.get8 .a))) (s.pc + 1))

/-- `INC [HL]` with HL in the boot ROM (R215): the read succeeds, flags and PC are updated, and the write-back raises `BootRomWrite` in
the M-cycle after it (the spec's own decisions D7, D11 and D15). -/
def Obligations.IncBootRomByteFaults : Prop :=
  ∀ s : State, regionOf (s.get16 .hl) = some .bootRom → ∃ t, exec .incHlMem s = .next t ∧
    t.flt = some (.bootRomWrite (s.get16 .hl) (s.pc + 1)) ∧ incFlagsRule s t (s.mem.read (s.get16 .hl).toNat) ∧
    Leaves s t [.f] s.sp ∧ KeepsMemory s t ∧ t.pc = s.pc + 1 ∧ t.clock = s.clock + 2 ∧
    t.history = .read (s.get16 .hl) (s.mem.read (s.get16 .hl).toNat) :: s.history ∧
    t.stage = .write (.write8 (s.get16 .hl) (s.mem.read (s.get16 .hl).toNat + 1))

/-- `PUSH r16` whose low or high byte meets an address that takes none (R201, R262): SP and PC are updated; a fault on the high byte
leaves the low byte written (the spec's own decisions D8, D9, D11). -/
def Obligations.PushFaultIsLatched : Prop :=
  ∀ (p : StackSel) (s : State) (r : FaultRecord),
    (writeFault (s.sp - 2) (s.pc + 1) = some r →
      ∃ t, exec (Form.push p) s = .next t ∧ Leaves s t [] (s.sp - 2) ∧ KeepsMemory s t ∧ t.flt = some r ∧
        t.pc = s.pc + 1 ∧ t.clock = s.clock + 2 ∧ t.history = s.history ∧
        t.stage = .write (.write16 (s.sp - 2) (s.get16 p.reg16))) ∧
    (Writable (s.sp - 2) → writeFault (s.sp - 1) (s.pc + 1) = some r →
      ∃ t, exec (Form.push p) s = .next t ∧ Leaves s t [] (s.sp - 2) ∧ t.flt = some r ∧
        (∀ x, t.mem.read x = storedAt s.mem (s.sp - 2) (BitVec.ofNat 8 (s.get16 p.reg16).toNat) x) ∧
        t.pc = s.pc + 1 ∧ t.clock = s.clock + 3 ∧
        t.history = .write (s.sp - 2) (BitVec.ofNat 8 (s.get16 p.reg16).toNat) :: s.history ∧
        t.stage = .write (.write16Hi (s.sp - 1) (BitVec.ofNat 8 ((s.get16 p.reg16).toNat / 256))))

/-- `UnmappedAddress` while the instruction's own bytes are fetched (R262, first four rows): nothing but PC past a prefix has changed,
and Stage is that of the M-cycle that faulted (40_stage_machine.md R153, the spec's own decision D11). -/
def Obligations.FetchFaultIsLatched : Prop :=
  ∀ s : State, s.Ready →
    (regionOf s.pc = none → ∃ t, step s = .next t ∧ Leaves s t [] s.sp ∧
      Latches s t (.unmappedAddress s.pc false s.pc) .fetch s.pc) ∧
    (∀ s1, readRun 1 s.pc s = .ok [0xCB] s1 → regionOf (s.pc + 1) = none →
      ∃ t, step s = .next t ∧ Leaves (s1.latch 0xCB false) t [] s.sp ∧
        Latches s1 t (.unmappedAddress (s.pc + 1) false (s.pc + 1)) .fetchPrefixed (s.pc + 1)) ∧
    (∀ s1 b f, readRun 1 s.pc s = .ok [b] s1 → b ≠ 0xCB → familyOf false b = some f → 1 ≤ f.immBytes →
      regionOf (s.pc + 1) = none →
      ∃ t, step s = .next t ∧ Leaves (s1.latch b false) t [] s.sp ∧
        Latches s1 t (.unmappedAddress (s.pc + 1) false s.pc)
          (.read (if f.immBytes = 1 then .read8 (s.pc + 1) else .read16 (s.pc + 1))) s.pc) ∧
    (∀ s1 b lo f, readRun 2 s.pc s = .ok [b, lo] s1 → b ≠ 0xCB → familyOf false b = some f → f.immBytes = 2 →
      regionOf (s.pc + 2) = none →
      ∃ t, step s = .next t ∧ Leaves (s1.latch b false) t [] s.sp ∧
        Latches s1 t (.unmappedAddress (s.pc + 2) false s.pc) (.read (.read16Hi (s.pc + 2) lo)) s.pc)

/-- An unprefixed unimplemented opcode (46_unimplemented_and_system.md R250): the byte is read and latched in OPC with PFX 0, the fault
carries the byte and its address, no register changes, PC is not advanced, memory is unchanged, Stage stays `Fetch`, and
every later step does nothing. -/
def Obligations.UnimplementedOpcodeIsLatched : Prop :=
  ∀ (s s1 : State) (b : Byte), s.Ready → readRun 1 s.pc s = .ok [b] s1 → listedUnimplemented b →
    ∃ t, step s = .next t ∧ cycle s = .next t ∧ t.flt = some (.unimplementedOpcode b false s.pc) ∧ t.opc = b ∧
      t.pfx = false ∧ (∀ n, t.get8 n = s.get8 n) ∧ t.sp = s.sp ∧ t.pc = s.pc ∧ t.stage = .fetch ∧ KeepsMemory s t ∧
      t.history = .read s.pc b :: s.history ∧ t.clock = s.clock + 1 ∧ t.ime = s.ime ∧ t.inc8Flags = s.inc8Flags ∧
      step t = .next t ∧ cycle t = .next t

/-- A prefixed unimplemented opcode (R251): the first M-cycle latches the prefix and moves PC past it, the second reads and latches the
byte and raises the fault; PC and the record hold the address of the second byte, no other register changes, and Stage
stays `FetchPrefixed` (the spec's own decision D11). -/
def Obligations.PrefixedUnimplementedOpcodeIsLatched : Prop :=
  ∀ (s s1 : State) (b : Byte), s.Ready → readRun 2 s.pc s = .ok [0xCB, b] s1 → b.toNat < 0x40 ∨ 0x80 ≤ b.toNat →
    ∃ u t, cycle s = .next u ∧ u.opc = 0xCB ∧ u.pfx = false ∧ u.pc = s.pc + 1 ∧ u.stage = .fetchPrefixed ∧
      cycle u = .next t ∧ step s = .next t ∧
      t.flt = some (.unimplementedOpcode b true (s.pc + 1)) ∧ t.opc = b ∧ t.pfx = true ∧
      (∀ n, t.get8 n = s.get8 n) ∧ t.sp = s.sp ∧ t.pc = s.pc + 1 ∧ t.stage = .fetchPrefixed ∧ KeepsMemory s t ∧
      t.history = .read (s.pc + 1) b :: .read s.pc 0xCB :: s.history ∧ t.clock = s.clock + 2 ∧ t.ime = s.ime ∧
      t.inc8Flags = s.inc8Flags ∧ step t = .next t ∧ cycle t = .next t

/-- The sticky fault latch (10_state.md R45): empty at reset, set to a raised fault's record, cleared by the reset input (whatever
`step_en` is: log entry 21), and while it is set no step and no M-cycle changes anything. That the halt is permanent is the spec's own decision D11 (log entry 2). -/
def Obligations.LatchedFaultIsSticky : Prop :=
  State.reset.flt = none ∧ (∀ (s : State) (r : FaultRecord), (s.raise r).flt = some r) ∧
  (∀ (s t : State) (en : Bool), drive true en s = .next t → t.flt = none) ∧
  ∀ (s : State) (k : Nat), s.flt ≠ none →
    Host.Core.run Sys2Proof.core k s = .next s ∧ runCycles k s = .next s ∧ drive false true s = .next s

/-- The interrupt-enable poll (60_exceptions.md R270, R271): at `Fetch` with IME set, either INT_REQ is 0, or it is 1 and the step latches
`InterruptDispatchUnimplemented` before any bus access; and in a `FetchPrefixed`, `Read`, `Wait` or `Write` stage, or with
INT_REQ 0, an M-cycle and a step do the same whatever IME holds. That a true condition latches a fault
is the spec's own decision D13, over the free input of log entry 5. -/
def Obligations.InterruptPollOnlyAtFetch : Prop :=
  (∀ s : State, s.flt = none → s.stage = .fetch → s.ime = true →
    Config.intReq s.history s.clock = false ∨
      ∃ t, step s = .next t ∧ cycle s = .next t ∧ Leaves s t [] s.sp ∧
        Latches s t (.interruptDispatchUnimplemented s.pc) .fetch s.pc) ∧
  (∀ (s : State) (b : Bool), s.stage ≠ .fetch ∨ Config.intReq s.history s.clock = false →
    cycle { s with ime := b } = mapNext (fun t => { t with ime := b }) (cycle s) ∧
    step { s with ime := b } = mapNext (fun t => { t with ime := b }) (step s))

/-- Only the families R269 names can raise `BootRomWrite` (the spec marks R269 as derived). -/
def Obligations.OnlyDataStoresRaiseBootRomWrite : Prop :=
  ∀ (i : Instr) (s t : State) (a pc : Word), s.flt = none → exec i s = .next t → t.flt = some (.bootRomWrite a pc) →
    (∃ m, i = Form.storeA m) ∨ (∃ r, i = Form.storeReg r) ∨ (∃ n, i = .ldHlMemN8 n) ∨ i = .incHlMem ∨
      (∃ p, i = Form.push p)

/-! ## The whole machine -/

/-- A step runs the instruction its bytes decode to: with the fetch of `bytes` answered by the bus, `step` is `exec` of it in the state the
fetch left, which has the bytes in the bus history, one M-cycle per byte, OPC and PFX latched, PC past a prefix, and all
else as before (00_scope.md R12, 40_stage_machine.md R136, R138). -/
def Obligations.StepRunsDecodedInstruction : Prop :=
  ∀ (s s1 : State) (bytes : List Byte) (i : Instr), s.Ready → decode bytes = .ok (i, []) → i.wf = true →
    readRun bytes.length s.pc s = .ok bytes s1 →
    step s = exec i (s1.afterFetch bytes) ∧
    (s1.afterFetch bytes).pc = (if bytes.head? = some 0xCB then s.pc + 1 else s.pc) ∧
    (s1.afterFetch bytes).pfx = (bytes.head? == some 0xCB) ∧
    (s1.afterFetch bytes).stage = .fetch ∧ (s1.afterFetch bytes).flt = none ∧
    (s1.afterFetch bytes).clock = s.clock + bytes.length ∧
    (s1.afterFetch bytes).history = fetchEvents s.pc bytes ++ s.history ∧
    (∀ n, (s1.afterFetch bytes).get8 n = s.get8 n) ∧ (s1.afterFetch bytes).sp = s.sp ∧
    (s1.afterFetch bytes).mem = s.mem ∧ (s1.afterFetch bytes).ime = s.ime ∧
    (s1.afterFetch bytes).inc8Flags = s.inc8Flags

/-- The two levels of description agree (R12): from an instruction boundary a step of the instruction level is what the M-cycle machine
does in one to four M-cycles (log entry 1), none of them but the last ending at a boundary; faults, latches, bus history and M-cycle
count included. -/
def Obligations.StepIsMCyclesToBoundary : Prop :=
  ∀ s : State, s.flt = none → s.stage = .fetch → ∃ n t, 1 ≤ n ∧ n ≤ 4 ∧
    step s = .next t ∧ runCycles n s = .next t ∧ t.atBoundary = true ∧
    ∀ m, 0 < m → m < n → ∃ u, runCycles m s = .next u ∧ u.atBoundary = false

/-- Suspension points are exactly the boundaries between M-cycles (R152): stopping after an M-cycle inside an instruction and resuming
gives what going on would have given. -/
def Obligations.SuspendAndResume : Prop :=
  ∀ s s1 : State, s.flt = none → cycle s = .next s1 → s1.atBoundary = false → step s1 = step s

/-- Every step that answers a state ends at an instruction boundary or with a fault latched (R140, R154). -/
def Obligations.StepsEndAtBoundaries : Prop :=
  ∀ s t : State, step s = .next t → t.atBoundary = true

/-- The M-cycle counts of R150: an instruction that raises no fault is over after exactly the M-cycles of the table. The
idle M-cycles of PUSH, INC r16 and taken JR are the spec's own decision D9 (log entry 18). -/
def Obligations.ScheduleMatchesTable : Prop :=
  ∀ (s s1 t : State) (f : Family) (lo hi : Byte) (i : Instr), s.Ready → instrOf f lo hi = some i →
    readRun i.length s.pc s = .ok (encode i) s1 → step s = .next t → t.flt = none →
    t.clock = s.clock + f.mCycles (familyTakes f s) ∧ runCycles (f.mCycles (familyTakes f s)) s = .next t

/-- In every M-cycle at most one of `BusRead`, `BusWrite` is called, and at most once (R151, which the spec marks as derived): the bus history grows by nothing or by the
one access the M-cycle requests, which is not answered when it raises a fault. -/
def Obligations.CycleMakesAtMostOneAccess : Prop :=
  ∀ s t : State, cycle s = .next t →
    (t.history = s.history ∧ (s.busRequest = none ∨ ∃ q, s.busRequest = some q ∧ q.error ≠ .none ∧ t.flt ≠ none)) ∨
    (∃ a v, s.busRequest = some (.read a) ∧ t.history = .read a v :: s.history) ∨
    (∃ a v, s.busRequest = some (.write a v) ∧ t.history = .write a v :: s.history)

/-- The invariant holds after construction with any boot image, and after reset (20_memory.md R70, 70_reset_and_hazards.md
R290). The erased image of `State.reset` is the model's choice (log entry 3). -/
def Obligations.InvariantHoldsAfterConstruction : Prop :=
  State.reset.Inv ∧ ∀ (image : BootImage) (mode : Inc8Flags), (State.construct image mode).Inv

/-- Every step and every M-cycle keeps the invariant: memory stays in canonical form, no byte is ever listed at a device or unmapped
address (20_memory.md R74, R77), and the stage stays well formed (10_state.md R44). -/
def Obligations.InvariantIsKept : Prop :=
  ∀ s t : State, s.Inv → (step s = .next t → t.Inv) ∧ (cycle s = .next t → t.Inv)

/-- "cannot fail: Decode already succeeded on the same latches" (R142): where the latches agree with the stage, no step and no M-cycle
stops the model, and they still agree afterwards. -/
def Obligations.ExecuteNeverFailsOnAgreeingLatches : Prop :=
  State.reset.latchesAgree = true ∧
  ∀ s : State, s.latchesAgree = true →
    (∃ t, step s = .next t ∧ t.latchesAgree = true) ∧ (∃ t, cycle s = .next t ∧ t.latchesAgree = true)

/-- No instruction sets C or IME: where both are 0 they stay 0 (R32, R50), at every step and every M-cycle. -/
def Obligations.CarryAndImeStayClear : Prop :=
  ∀ s t : State, s.f.c = false → s.ime = false → step s = .next t ∨ cycle s = .next t → t.f.c = false ∧ t.ime = false

/-- The boot ROM never changes (20_memory.md R70, R71), and neither do IME (R50) and the parameter INC8_FLAGS (00_scope.md R7), in any
step from any state. -/
def Obligations.BootRomAndParametersNeverChange : Prop :=
  ∀ s t : State, step s = .next t ∨ cycle s = .next t →
    (∀ x, x < 0x100 → t.mem.read x = s.mem.read x) ∧ t.ime = s.ime ∧ t.inc8Flags = s.inc8Flags

/-- Only XOR, BIT and INC r/m8 write flags (R32); SP is written only by `LD SP,n16`, `INC SP` and `PUSH` (R54). -/
def Obligations.FlagAndStackPointerWriters : Prop :=
  ∀ (i : Instr) (s t : State), exec i s = .next t →
    (t.f ≠ s.f → i = .xorHlMem ∨ (∃ r, i = Form.xorReg r) ∨ i = .incHlMem ∨ (∃ r, i = Form.incReg r) ∨
      (∃ n r, i = Form.bitReg n r) ∨ (∃ n, i = Form.bitMem n)) ∧
    (t.sp ≠ s.sp → (∃ n, i = .ldSpN16 n) ∨ i = .incSp ∨ ∃ p, i = Form.push p)

/-- No result depends on a cycle count (70_reset_and_hazards.md R297): with IME clear, a step from a state whose clock stands elsewhere
differs in the clock alone, by as much. -/
def Obligations.ResultsDoNotDependOnTheClock : Prop :=
  ∀ (s : State) (k : Nat), s.ime = false →
    step { s with clock := s.clock + k } = mapNext (fun t => { t with clock := t.clock + k }) (step s)

/-- The state after construction (R290): every register 0, Stage `Fetch`, FLT empty, IME 0, the boot ROM as given, every other storage
byte 0, the history empty. The values of OPC, PFX, FLT, IME and IE are the spec's own choice (D19, D4, D11, D13, D14). -/
def Obligations.ConstructionState : Prop :=
  ∀ (image : BootImage) (mode : Inc8Flags),
    (∀ p, (State.construct image mode).get16 p = 0) ∧ (∀ n, (State.construct image mode).get8 n = 0) ∧
    (State.construct image mode).stage = .fetch ∧ (State.construct image mode).opc = 0 ∧
    (State.construct image mode).pfx = false ∧ (State.construct image mode).flt = none ∧
    (State.construct image mode).ime = false ∧ (State.construct image mode).history = [] ∧
    (State.construct image mode).inc8Flags = mode ∧ (State.construct image mode).ie = 0 ∧
    ∀ x, (State.construct image mode).mem.read x = if h : x < 256 then image[x] else 0

/-- Construction takes a boot image of exactly 256 bytes, and bytes of any other length make no state (R292). The reset state of the
model is construction with 256 bytes 0x00 and ZNH, which is the model's choice (log entries 3 and 4). -/
def Obligations.ConstructionTakes256Bytes : Prop :=
  (∀ (bytes : List Byte) (mode : Inc8Flags), bytes.length = 256 →
    ∃ image : BootImage, image.toList = bytes ∧ State.construct? bytes mode = some (State.construct image mode)) ∧
  (∀ (bytes : List Byte) (mode : Inc8Flags), bytes.length ≠ 256 → State.construct? bytes mode = none) ∧
  State.reset = State.construct BootImage.erased .znh ∧ ∀ x (h : x < 256), BootImage.erased[x] = 0x00

/-- The `reset` input at any M-cycle boundary (R293): it discards Stage, clears FLT and restores the whole reset state, memory included,
with the instance's own boot image: the spec's own decision D1. What the driver's M-cycle count does (log
entry 19), and that reset wins when `step_en` is active too (log entry 21), are the model's choices. -/
def Obligations.ResetRestoresTheResetState : Prop :=
  ∀ s : State, s.Inv → ∃ (t : State) (image : BootImage), drive true false s = .next t ∧ drive true true s = .next t ∧
    (∀ x (h : x < 256), image[x] = s.mem.read x) ∧
    t = { State.construct image s.inc8Flags with clock := s.clock }
end

