-- ==== Sys2Proof/Laws/State.lean ====
section
/-! SUPPORT. One lemma per field per update of the state, so that no proof unfolds a record update. -/
namespace Sys2Proof.Machine

variable (s : State)

/-- Two states are equal when all their fields are. -/
theorem State.eq_of_fields {s t : State} (bc : s.bc = t.bc) (de : s.de = t.de) (hl : s.hl = t.hl) (a : s.a = t.a)
    (f : s.f = t.f) (sp : s.sp = t.sp) (pc : s.pc = t.pc) (stage : s.stage = t.stage) (opc : s.opc = t.opc)
    (pfx : s.pfx = t.pfx) (flt : s.flt = t.flt) (ime : s.ime = t.ime) (mem : s.mem = t.mem)
    (history : s.history = t.history) (inc8Flags : s.inc8Flags = t.inc8Flags) (clock : s.clock = t.clock) : s = t := by
  cases s
  simp only at *
  subst_vars
  rfl

/-! ### tick -/

@[simp] theorem State.tick_bc : (s.tick).bc = s.bc := rfl
@[simp] theorem State.tick_de : (s.tick).de = s.de := rfl
@[simp] theorem State.tick_hl : (s.tick).hl = s.hl := rfl
@[simp] theorem State.tick_a : (s.tick).a = s.a := rfl
@[simp] theorem State.tick_f : (s.tick).f = s.f := rfl
@[simp] theorem State.tick_sp : (s.tick).sp = s.sp := rfl
@[simp] theorem State.tick_pc : (s.tick).pc = s.pc := rfl
@[simp] theorem State.tick_stage : (s.tick).stage = s.stage := rfl
@[simp] theorem State.tick_opc : (s.tick).opc = s.opc := rfl
@[simp] theorem State.tick_pfx : (s.tick).pfx = s.pfx := rfl
@[simp] theorem State.tick_flt : (s.tick).flt = s.flt := rfl
@[simp] theorem State.tick_ime : (s.tick).ime = s.ime := rfl
@[simp] theorem State.tick_mem : (s.tick).mem = s.mem := rfl
@[simp] theorem State.tick_history : (s.tick).history = s.history := rfl
@[simp] theorem State.tick_inc8Flags : (s.tick).inc8Flags = s.inc8Flags := rfl
@[simp] theorem State.tick_clock : (s.tick).clock = s.clock + 1 := rfl

/-! ### raise -/

@[simp] theorem State.raise_bc (r : FaultRecord) : (s.raise r).bc = s.bc := rfl
@[simp] theorem State.raise_de (r : FaultRecord) : (s.raise r).de = s.de := rfl
@[simp] theorem State.raise_hl (r : FaultRecord) : (s.raise r).hl = s.hl := rfl
@[simp] theorem State.raise_a (r : FaultRecord) : (s.raise r).a = s.a := rfl
@[simp] theorem State.raise_f (r : FaultRecord) : (s.raise r).f = s.f := rfl
@[simp] theorem State.raise_sp (r : FaultRecord) : (s.raise r).sp = s.sp := rfl
@[simp] theorem State.raise_pc (r : FaultRecord) : (s.raise r).pc = s.pc := rfl
@[simp] theorem State.raise_stage (r : FaultRecord) : (s.raise r).stage = s.stage := rfl
@[simp] theorem State.raise_opc (r : FaultRecord) : (s.raise r).opc = s.opc := rfl
@[simp] theorem State.raise_pfx (r : FaultRecord) : (s.raise r).pfx = s.pfx := rfl
@[simp] theorem State.raise_flt (r : FaultRecord) : (s.raise r).flt = some r := rfl
@[simp] theorem State.raise_ime (r : FaultRecord) : (s.raise r).ime = s.ime := rfl
@[simp] theorem State.raise_mem (r : FaultRecord) : (s.raise r).mem = s.mem := rfl
@[simp] theorem State.raise_history (r : FaultRecord) : (s.raise r).history = s.history := rfl
@[simp] theorem State.raise_inc8Flags (r : FaultRecord) : (s.raise r).inc8Flags = s.inc8Flags := rfl
@[simp] theorem State.raise_clock (r : FaultRecord) : (s.raise r).clock = s.clock := rfl

/-! ### advance -/

@[simp] theorem State.advance_bc (n : Word) : (s.advance n).bc = s.bc := rfl
@[simp] theorem State.advance_de (n : Word) : (s.advance n).de = s.de := rfl
@[simp] theorem State.advance_hl (n : Word) : (s.advance n).hl = s.hl := rfl
@[simp] theorem State.advance_a (n : Word) : (s.advance n).a = s.a := rfl
@[simp] theorem State.advance_f (n : Word) : (s.advance n).f = s.f := rfl
@[simp] theorem State.advance_sp (n : Word) : (s.advance n).sp = s.sp := rfl
@[simp] theorem State.advance_pc (n : Word) : (s.advance n).pc = s.pc + n := rfl
@[simp] theorem State.advance_stage (n : Word) : (s.advance n).stage = .fetch := rfl
@[simp] theorem State.advance_opc (n : Word) : (s.advance n).opc = s.opc := rfl
@[simp] theorem State.advance_pfx (n : Word) : (s.advance n).pfx = s.pfx := rfl
@[simp] theorem State.advance_flt (n : Word) : (s.advance n).flt = s.flt := rfl
@[simp] theorem State.advance_ime (n : Word) : (s.advance n).ime = s.ime := rfl
@[simp] theorem State.advance_mem (n : Word) : (s.advance n).mem = s.mem := rfl
@[simp] theorem State.advance_history (n : Word) : (s.advance n).history = s.history := rfl
@[simp] theorem State.advance_inc8Flags (n : Word) : (s.advance n).inc8Flags = s.inc8Flags := rfl
@[simp] theorem State.advance_clock (n : Word) : (s.advance n).clock = s.clock := rfl

/-! ### movePc -/

@[simp] theorem State.movePc_bc (n : Word) : (s.movePc n).bc = s.bc := rfl
@[simp] theorem State.movePc_de (n : Word) : (s.movePc n).de = s.de := rfl
@[simp] theorem State.movePc_hl (n : Word) : (s.movePc n).hl = s.hl := rfl
@[simp] theorem State.movePc_a (n : Word) : (s.movePc n).a = s.a := rfl
@[simp] theorem State.movePc_f (n : Word) : (s.movePc n).f = s.f := rfl
@[simp] theorem State.movePc_sp (n : Word) : (s.movePc n).sp = s.sp := rfl
@[simp] theorem State.movePc_pc (n : Word) : (s.movePc n).pc = s.pc + n := rfl
@[simp] theorem State.movePc_stage (n : Word) : (s.movePc n).stage = s.stage := rfl
@[simp] theorem State.movePc_opc (n : Word) : (s.movePc n).opc = s.opc := rfl
@[simp] theorem State.movePc_pfx (n : Word) : (s.movePc n).pfx = s.pfx := rfl
@[simp] theorem State.movePc_flt (n : Word) : (s.movePc n).flt = s.flt := rfl
@[simp] theorem State.movePc_ime (n : Word) : (s.movePc n).ime = s.ime := rfl
@[simp] theorem State.movePc_mem (n : Word) : (s.movePc n).mem = s.mem := rfl
@[simp] theorem State.movePc_history (n : Word) : (s.movePc n).history = s.history := rfl
@[simp] theorem State.movePc_inc8Flags (n : Word) : (s.movePc n).inc8Flags = s.inc8Flags := rfl
@[simp] theorem State.movePc_clock (n : Word) : (s.movePc n).clock = s.clock := rfl

/-! ### setStage -/

@[simp] theorem State.setStage_bc (st : Stage) : (s.setStage st).bc = s.bc := rfl
@[simp] theorem State.setStage_de (st : Stage) : (s.setStage st).de = s.de := rfl
@[simp] theorem State.setStage_hl (st : Stage) : (s.setStage st).hl = s.hl := rfl
@[simp] theorem State.setStage_a (st : Stage) : (s.setStage st).a = s.a := rfl
@[simp] theorem State.setStage_f (st : Stage) : (s.setStage st).f = s.f := rfl
@[simp] theorem State.setStage_sp (st : Stage) : (s.setStage st).sp = s.sp := rfl
@[simp] theorem State.setStage_pc (st : Stage) : (s.setStage st).pc = s.pc := rfl
@[simp] theorem State.setStage_stage (st : Stage) : (s.setStage st).stage = st := rfl
@[simp] theorem State.setStage_opc (st : Stage) : (s.setStage st).opc = s.opc := rfl
@[simp] theorem State.setStage_pfx (st : Stage) : (s.setStage st).pfx = s.pfx := rfl
@[simp] theorem State.setStage_flt (st : Stage) : (s.setStage st).flt = s.flt := rfl
@[simp] theorem State.setStage_ime (st : Stage) : (s.setStage st).ime = s.ime := rfl
@[simp] theorem State.setStage_mem (st : Stage) : (s.setStage st).mem = s.mem := rfl
@[simp] theorem State.setStage_history (st : Stage) : (s.setStage st).history = s.history := rfl
@[simp] theorem State.setStage_inc8Flags (st : Stage) : (s.setStage st).inc8Flags = s.inc8Flags := rfl
@[simp] theorem State.setStage_clock (st : Stage) : (s.setStage st).clock = s.clock := rfl

/-! ### latch -/

@[simp] theorem State.latch_bc (b : Byte) (p : Bool) : (s.latch b p).bc = s.bc := rfl
@[simp] theorem State.latch_de (b : Byte) (p : Bool) : (s.latch b p).de = s.de := rfl
@[simp] theorem State.latch_hl (b : Byte) (p : Bool) : (s.latch b p).hl = s.hl := rfl
@[simp] theorem State.latch_a (b : Byte) (p : Bool) : (s.latch b p).a = s.a := rfl
@[simp] theorem State.latch_f (b : Byte) (p : Bool) : (s.latch b p).f = s.f := rfl
@[simp] theorem State.latch_sp (b : Byte) (p : Bool) : (s.latch b p).sp = s.sp := rfl
@[simp] theorem State.latch_pc (b : Byte) (p : Bool) : (s.latch b p).pc = s.pc := rfl
@[simp] theorem State.latch_stage (b : Byte) (p : Bool) : (s.latch b p).stage = s.stage := rfl
@[simp] theorem State.latch_opc (b : Byte) (p : Bool) : (s.latch b p).opc = b := rfl
@[simp] theorem State.latch_pfx (b : Byte) (p : Bool) : (s.latch b p).pfx = p := rfl
@[simp] theorem State.latch_flt (b : Byte) (p : Bool) : (s.latch b p).flt = s.flt := rfl
@[simp] theorem State.latch_ime (b : Byte) (p : Bool) : (s.latch b p).ime = s.ime := rfl
@[simp] theorem State.latch_mem (b : Byte) (p : Bool) : (s.latch b p).mem = s.mem := rfl
@[simp] theorem State.latch_history (b : Byte) (p : Bool) : (s.latch b p).history = s.history := rfl
@[simp] theorem State.latch_inc8Flags (b : Byte) (p : Bool) : (s.latch b p).inc8Flags = s.inc8Flags := rfl
@[simp] theorem State.latch_clock (b : Byte) (p : Bool) : (s.latch b p).clock = s.clock := rfl

/-! ### log -/

@[simp] theorem State.log_bc (e : BusEvent) : (s.log e).bc = s.bc := rfl
@[simp] theorem State.log_de (e : BusEvent) : (s.log e).de = s.de := rfl
@[simp] theorem State.log_hl (e : BusEvent) : (s.log e).hl = s.hl := rfl
@[simp] theorem State.log_a (e : BusEvent) : (s.log e).a = s.a := rfl
@[simp] theorem State.log_f (e : BusEvent) : (s.log e).f = s.f := rfl
@[simp] theorem State.log_sp (e : BusEvent) : (s.log e).sp = s.sp := rfl
@[simp] theorem State.log_pc (e : BusEvent) : (s.log e).pc = s.pc := rfl
@[simp] theorem State.log_stage (e : BusEvent) : (s.log e).stage = s.stage := rfl
@[simp] theorem State.log_opc (e : BusEvent) : (s.log e).opc = s.opc := rfl
@[simp] theorem State.log_pfx (e : BusEvent) : (s.log e).pfx = s.pfx := rfl
@[simp] theorem State.log_flt (e : BusEvent) : (s.log e).flt = s.flt := rfl
@[simp] theorem State.log_ime (e : BusEvent) : (s.log e).ime = s.ime := rfl
@[simp] theorem State.log_mem (e : BusEvent) : (s.log e).mem = s.mem := rfl
@[simp] theorem State.log_history (e : BusEvent) : (s.log e).history = e :: s.history := rfl
@[simp] theorem State.log_inc8Flags (e : BusEvent) : (s.log e).inc8Flags = s.inc8Flags := rfl
@[simp] theorem State.log_clock (e : BusEvent) : (s.log e).clock = s.clock := rfl

/-! ### setFlags -/

@[simp] theorem State.setFlags_bc (g : Flags) : (s.setFlags g).bc = s.bc := rfl
@[simp] theorem State.setFlags_de (g : Flags) : (s.setFlags g).de = s.de := rfl
@[simp] theorem State.setFlags_hl (g : Flags) : (s.setFlags g).hl = s.hl := rfl
@[simp] theorem State.setFlags_a (g : Flags) : (s.setFlags g).a = s.a := rfl
@[simp] theorem State.setFlags_f (g : Flags) : (s.setFlags g).f = g := rfl
@[simp] theorem State.setFlags_sp (g : Flags) : (s.setFlags g).sp = s.sp := rfl
@[simp] theorem State.setFlags_pc (g : Flags) : (s.setFlags g).pc = s.pc := rfl
@[simp] theorem State.setFlags_stage (g : Flags) : (s.setFlags g).stage = s.stage := rfl
@[simp] theorem State.setFlags_opc (g : Flags) : (s.setFlags g).opc = s.opc := rfl
@[simp] theorem State.setFlags_pfx (g : Flags) : (s.setFlags g).pfx = s.pfx := rfl
@[simp] theorem State.setFlags_flt (g : Flags) : (s.setFlags g).flt = s.flt := rfl
@[simp] theorem State.setFlags_ime (g : Flags) : (s.setFlags g).ime = s.ime := rfl
@[simp] theorem State.setFlags_mem (g : Flags) : (s.setFlags g).mem = s.mem := rfl
@[simp] theorem State.setFlags_history (g : Flags) : (s.setFlags g).history = s.history := rfl
@[simp] theorem State.setFlags_inc8Flags (g : Flags) : (s.setFlags g).inc8Flags = s.inc8Flags := rfl
@[simp] theorem State.setFlags_clock (g : Flags) : (s.setFlags g).clock = s.clock := rfl

/-! ### inc8 -/

@[simp] theorem State.inc8_bc (old : Byte) : (s.inc8 old).bc = s.bc := rfl
@[simp] theorem State.inc8_de (old : Byte) : (s.inc8 old).de = s.de := rfl
@[simp] theorem State.inc8_hl (old : Byte) : (s.inc8 old).hl = s.hl := rfl
@[simp] theorem State.inc8_a (old : Byte) : (s.inc8 old).a = s.a := rfl
@[simp] theorem State.inc8_f (old : Byte) : (s.inc8 old).f = inc8FlagsOf s.inc8Flags old s.f := rfl
@[simp] theorem State.inc8_sp (old : Byte) : (s.inc8 old).sp = s.sp := rfl
@[simp] theorem State.inc8_pc (old : Byte) : (s.inc8 old).pc = s.pc := rfl
@[simp] theorem State.inc8_stage (old : Byte) : (s.inc8 old).stage = s.stage := rfl
@[simp] theorem State.inc8_opc (old : Byte) : (s.inc8 old).opc = s.opc := rfl
@[simp] theorem State.inc8_pfx (old : Byte) : (s.inc8 old).pfx = s.pfx := rfl
@[simp] theorem State.inc8_flt (old : Byte) : (s.inc8 old).flt = s.flt := rfl
@[simp] theorem State.inc8_ime (old : Byte) : (s.inc8 old).ime = s.ime := rfl
@[simp] theorem State.inc8_mem (old : Byte) : (s.inc8 old).mem = s.mem := rfl
@[simp] theorem State.inc8_history (old : Byte) : (s.inc8 old).history = s.history := rfl
@[simp] theorem State.inc8_inc8Flags (old : Byte) : (s.inc8 old).inc8Flags = s.inc8Flags := rfl
@[simp] theorem State.inc8_clock (old : Byte) : (s.inc8 old).clock = s.clock := rfl

/-! ### putByte: only the memory list changes -/

@[simp] theorem State.putByte_bc (a : Word) (v : Byte) : (s.putByte a v).bc = s.bc := by
  unfold State.putByte; split <;> (try split) <;> rfl
@[simp] theorem State.putByte_de (a : Word) (v : Byte) : (s.putByte a v).de = s.de := by
  unfold State.putByte; split <;> (try split) <;> rfl
@[simp] theorem State.putByte_hl (a : Word) (v : Byte) : (s.putByte a v).hl = s.hl := by
  unfold State.putByte; split <;> (try split) <;> rfl
@[simp] theorem State.putByte_a (a : Word) (v : Byte) : (s.putByte a v).a = s.a := by
  unfold State.putByte; split <;> (try split) <;> rfl
@[simp] theorem State.putByte_f (a : Word) (v : Byte) : (s.putByte a v).f = s.f := by
  unfold State.putByte; split <;> (try split) <;> rfl
@[simp] theorem State.putByte_sp (a : Word) (v : Byte) : (s.putByte a v).sp = s.sp := by
  unfold State.putByte; split <;> (try split) <;> rfl
@[simp] theorem State.putByte_pc (a : Word) (v : Byte) : (s.putByte a v).pc = s.pc := by
  unfold State.putByte; split <;> (try split) <;> rfl
@[simp] theorem State.putByte_stage (a : Word) (v : Byte) : (s.putByte a v).stage = s.stage := by
  unfold State.putByte; split <;> (try split) <;> rfl
@[simp] theorem State.putByte_opc (a : Word) (v : Byte) : (s.putByte a v).opc = s.opc := by
  unfold State.putByte; split <;> (try split) <;> rfl
@[simp] theorem State.putByte_pfx (a : Word) (v : Byte) : (s.putByte a v).pfx = s.pfx := by
  unfold State.putByte; split <;> (try split) <;> rfl
@[simp] theorem State.putByte_flt (a : Word) (v : Byte) : (s.putByte a v).flt = s.flt := by
  unfold State.putByte; split <;> (try split) <;> rfl
@[simp] theorem State.putByte_ime (a : Word) (v : Byte) : (s.putByte a v).ime = s.ime := by
  unfold State.putByte; split <;> (try split) <;> rfl
@[simp] theorem State.putByte_history (a : Word) (v : Byte) : (s.putByte a v).history = s.history := by
  unfold State.putByte; split <;> (try split) <;> rfl
@[simp] theorem State.putByte_inc8Flags (a : Word) (v : Byte) : (s.putByte a v).inc8Flags = s.inc8Flags := by
  unfold State.putByte; split <;> (try split) <;> rfl
@[simp] theorem State.putByte_clock (a : Word) (v : Byte) : (s.putByte a v).clock = s.clock := by
  unfold State.putByte; split <;> (try split) <;> rfl

/-! ### Register writes: only the register file changes -/

@[simp] theorem State.set16_stage (p : Reg16) (v : Word) : (s.set16 p v).stage = s.stage := by cases p <;> rfl
@[simp] theorem State.set16_opc (p : Reg16) (v : Word) : (s.set16 p v).opc = s.opc := by cases p <;> rfl
@[simp] theorem State.set16_pfx (p : Reg16) (v : Word) : (s.set16 p v).pfx = s.pfx := by cases p <;> rfl
@[simp] theorem State.set16_flt (p : Reg16) (v : Word) : (s.set16 p v).flt = s.flt := by cases p <;> rfl
@[simp] theorem State.set16_ime (p : Reg16) (v : Word) : (s.set16 p v).ime = s.ime := by cases p <;> rfl
@[simp] theorem State.set16_mem (p : Reg16) (v : Word) : (s.set16 p v).mem = s.mem := by cases p <;> rfl
@[simp] theorem State.set16_history (p : Reg16) (v : Word) : (s.set16 p v).history = s.history := by cases p <;> rfl
@[simp] theorem State.set16_inc8Flags (p : Reg16) (v : Word) : (s.set16 p v).inc8Flags = s.inc8Flags := by cases p <;> rfl
@[simp] theorem State.set16_clock (p : Reg16) (v : Word) : (s.set16 p v).clock = s.clock := by cases p <;> rfl
@[simp] theorem State.set8_sp (n : Reg8) (v : Byte) : (s.set8 n v).sp = s.sp := by cases n <;> rfl
@[simp] theorem State.set8_pc (n : Reg8) (v : Byte) : (s.set8 n v).pc = s.pc := by cases n <;> rfl
@[simp] theorem State.set8_stage (n : Reg8) (v : Byte) : (s.set8 n v).stage = s.stage := by cases n <;> rfl
@[simp] theorem State.set8_opc (n : Reg8) (v : Byte) : (s.set8 n v).opc = s.opc := by cases n <;> rfl
@[simp] theorem State.set8_pfx (n : Reg8) (v : Byte) : (s.set8 n v).pfx = s.pfx := by cases n <;> rfl
@[simp] theorem State.set8_flt (n : Reg8) (v : Byte) : (s.set8 n v).flt = s.flt := by cases n <;> rfl
@[simp] theorem State.set8_ime (n : Reg8) (v : Byte) : (s.set8 n v).ime = s.ime := by cases n <;> rfl
@[simp] theorem State.set8_mem (n : Reg8) (v : Byte) : (s.set8 n v).mem = s.mem := by cases n <;> rfl
@[simp] theorem State.set8_history (n : Reg8) (v : Byte) : (s.set8 n v).history = s.history := by cases n <;> rfl
@[simp] theorem State.set8_inc8Flags (n : Reg8) (v : Byte) : (s.set8 n v).inc8Flags = s.inc8Flags := by cases n <;> rfl
@[simp] theorem State.set8_clock (n : Reg8) (v : Byte) : (s.set8 n v).clock = s.clock := by cases n <;> rfl

/-! ### Reads of registers pass over updates of other fields -/

@[simp] theorem State.tick_get8  (n8 : Reg8) : (s.tick).get8 n8 = s.get8 n8 := by cases n8 <;> rfl
@[simp] theorem State.tick_get16  (p16 : Reg16) : (s.tick).get16 p16 = s.get16 p16 := by cases p16 <;> rfl
@[simp] theorem State.raise_get8 (r : FaultRecord) (n8 : Reg8) : (s.raise r).get8 n8 = s.get8 n8 := by cases n8 <;> rfl
@[simp] theorem State.raise_get16 (r : FaultRecord) (p16 : Reg16) : (s.raise r).get16 p16 = s.get16 p16 := by cases p16 <;> rfl
@[simp] theorem State.advance_get8 (n : Word) (n8 : Reg8) : (s.advance n).get8 n8 = s.get8 n8 := by cases n8 <;> rfl
@[simp] theorem State.advance_get16 (n : Word) (p : Reg16) (h : p ≠ .pc) : (s.advance n).get16 p = s.get16 p := by
  cases p <;> first | rfl | exact absurd rfl h
@[simp] theorem State.movePc_get8 (n : Word) (n8 : Reg8) : (s.movePc n).get8 n8 = s.get8 n8 := by cases n8 <;> rfl
@[simp] theorem State.movePc_get16 (n : Word) (p : Reg16) (h : p ≠ .pc) : (s.movePc n).get16 p = s.get16 p := by
  cases p <;> first | rfl | exact absurd rfl h
@[simp] theorem State.setStage_get8 (st : Stage) (n8 : Reg8) : (s.setStage st).get8 n8 = s.get8 n8 := by cases n8 <;> rfl
@[simp] theorem State.setStage_get16 (st : Stage) (p16 : Reg16) : (s.setStage st).get16 p16 = s.get16 p16 := by cases p16 <;> rfl
@[simp] theorem State.latch_get8 (b : Byte) (p : Bool) (n8 : Reg8) : (s.latch b p).get8 n8 = s.get8 n8 := by cases n8 <;> rfl
@[simp] theorem State.latch_get16 (b : Byte) (p : Bool) (p16 : Reg16) : (s.latch b p).get16 p16 = s.get16 p16 := by cases p16 <;> rfl
@[simp] theorem State.log_get8 (e : BusEvent) (n8 : Reg8) : (s.log e).get8 n8 = s.get8 n8 := by cases n8 <;> rfl
@[simp] theorem State.log_get16 (e : BusEvent) (p16 : Reg16) : (s.log e).get16 p16 = s.get16 p16 := by cases p16 <;> rfl

@[simp] theorem State.putByte_get8 (a : Word) (v : Byte) (n : Reg8) : (s.putByte a v).get8 n = s.get8 n := by
  cases n <;> simp [State.get8]

@[simp] theorem State.putByte_get16 (a : Word) (v : Byte) (p : Reg16) : (s.putByte a v).get16 p = s.get16 p := by
  cases p <;> simp [State.get16]

/-! ### The byte a bus read returns depends on storage and history alone -/

@[simp] theorem State.tick_busByte  (x : Word) : (s.tick).busByte x = s.busByte x := rfl
@[simp] theorem State.raise_busByte (r : FaultRecord) (x : Word) : (s.raise r).busByte x = s.busByte x := rfl
@[simp] theorem State.advance_busByte (n : Word) (x : Word) : (s.advance n).busByte x = s.busByte x := rfl
@[simp] theorem State.movePc_busByte (n : Word) (x : Word) : (s.movePc n).busByte x = s.busByte x := rfl
@[simp] theorem State.setStage_busByte (st : Stage) (x : Word) : (s.setStage st).busByte x = s.busByte x := rfl
@[simp] theorem State.latch_busByte (b : Byte) (p : Bool) (x : Word) : (s.latch b p).busByte x = s.busByte x := rfl
@[simp] theorem State.setFlags_busByte (g : Flags) (x : Word) : (s.setFlags g).busByte x = s.busByte x := rfl
@[simp] theorem State.set8_busByte (n : Reg8) (v : Byte) (x : Word) : (s.set8 n v).busByte x = s.busByte x := by
  cases n <;> rfl
@[simp] theorem State.set16_busByte (p : Reg16) (v : Word) (x : Word) : (s.set16 p v).busByte x = s.busByte x := by
  cases p <;> rfl

/-! ### Both components of `AddrR16Mem` (R146) -/

/-- The address is the pair's value before any step of HL (10_state.md R28). -/
theorem addrR16Mem_fst (p : MemSel) :
    (addrR16Mem p s).1 = match p with | .bc => s.bc | .de => s.de | .hlInc => s.hl | .hlDec => s.hl := by
  cases p <;> rfl

/-- Only HL can change, by one. -/
theorem addrR16Mem_snd (p : MemSel) :
    (addrR16Mem p s).2 =
      match p with | .bc => s | .de => s | .hlInc => { s with hl := s.hl + 1 } | .hlDec => { s with hl := s.hl - 1 } := by
  cases p <;> rfl

@[simp] theorem addrR16Mem_bc (p : MemSel) : (addrR16Mem p s).2.bc = s.bc := by cases p <;> rfl
@[simp] theorem addrR16Mem_de (p : MemSel) : (addrR16Mem p s).2.de = s.de := by cases p <;> rfl
@[simp] theorem addrR16Mem_a (p : MemSel) : (addrR16Mem p s).2.a = s.a := by cases p <;> rfl
@[simp] theorem addrR16Mem_f (p : MemSel) : (addrR16Mem p s).2.f = s.f := by cases p <;> rfl
@[simp] theorem addrR16Mem_sp (p : MemSel) : (addrR16Mem p s).2.sp = s.sp := by cases p <;> rfl
@[simp] theorem addrR16Mem_pc (p : MemSel) : (addrR16Mem p s).2.pc = s.pc := by cases p <;> rfl
@[simp] theorem addrR16Mem_stage (p : MemSel) : (addrR16Mem p s).2.stage = s.stage := by cases p <;> rfl
@[simp] theorem addrR16Mem_opc (p : MemSel) : (addrR16Mem p s).2.opc = s.opc := by cases p <;> rfl
@[simp] theorem addrR16Mem_pfx (p : MemSel) : (addrR16Mem p s).2.pfx = s.pfx := by cases p <;> rfl
@[simp] theorem addrR16Mem_flt (p : MemSel) : (addrR16Mem p s).2.flt = s.flt := by cases p <;> rfl
@[simp] theorem addrR16Mem_ime (p : MemSel) : (addrR16Mem p s).2.ime = s.ime := by cases p <;> rfl
@[simp] theorem addrR16Mem_mem (p : MemSel) : (addrR16Mem p s).2.mem = s.mem := by cases p <;> rfl
@[simp] theorem addrR16Mem_history (p : MemSel) : (addrR16Mem p s).2.history = s.history := by cases p <;> rfl
@[simp] theorem addrR16Mem_inc8Flags (p : MemSel) : (addrR16Mem p s).2.inc8Flags = s.inc8Flags := by cases p <;> rfl
@[simp] theorem addrR16Mem_clock (p : MemSel) : (addrR16Mem p s).2.clock = s.clock := by cases p <;> rfl
@[simp] theorem addrR16Mem_busByte (p : MemSel) (x : Word) : (addrR16Mem p s).2.busByte x = s.busByte x := by cases p <;> rfl

end Sys2Proof.Machine
end

