-- ==== Sys2Proof/Laws/Bus.lean ====
section
/-! SUPPORT. What the bus operations answer, said once: one lemma per case of a read and of a write, and of the three data-access
operations the meanings are written with. Later proofs cite these and never unfold the bus. -/
namespace Sys2Proof.Machine

variable (s : State) (a : Word) (v : Byte)

/-! ## One access -/

theorem busRead_ok (h : Readable a) : busRead a s = .ok (s.busByte a) (s.log (.read a (s.busByte a))) := by
  unfold busRead
  cases hr : regionOf a with
  | none => exact absurd hr h
  | some r => rfl

theorem busRead_unmapped (h : regionOf a = none) : busRead a s = .raised (s.raise (.unmappedAddress a false s.pc)) := by
  unfold busRead; rw [h]

theorem busWrite_ok (h : Writable a) : busWrite a v s = .ok () ((s.putByte a v).log (.write a v)) := by
  unfold busWrite
  cases hr : regionOf a with
  | none => exact absurd hr h.1
  | some r => cases r <;> first | rfl | exact absurd hr h.2

theorem busWrite_unmapped (h : regionOf a = none) : busWrite a v s = .raised (s.raise (.unmappedAddress a true s.pc)) := by
  unfold busWrite; rw [h]

theorem busWrite_bootRom (h : regionOf a = some .bootRom) : busWrite a v s = .raised (s.raise (.bootRomWrite a s.pc)) := by
  unfold busWrite; rw [h]

/-- A read ends in one of two ways. -/
theorem busRead_cases :
    (Readable a ∧ busRead a s = .ok (s.busByte a) (s.log (.read a (s.busByte a)))) ∨
      (regionOf a = none ∧ busRead a s = .raised (s.raise (.unmappedAddress a false s.pc))) := by
  by_cases h : regionOf a = none
  · exact .inr ⟨h, busRead_unmapped s a h⟩
  · exact .inl ⟨h, busRead_ok s a h⟩

/-- A write ends in one of three ways. -/
theorem busWrite_cases :
    (Writable a ∧ busWrite a v s = .ok () ((s.putByte a v).log (.write a v))) ∨
      (regionOf a = none ∧ busWrite a v s = .raised (s.raise (.unmappedAddress a true s.pc))) ∨
      (regionOf a = some .bootRom ∧ busWrite a v s = .raised (s.raise (.bootRomWrite a s.pc))) := by
  by_cases h : regionOf a = none
  · exact .inr (.inl ⟨h, busWrite_unmapped s a v h⟩)
  · by_cases hb : regionOf a = some .bootRom
    · exact .inr (.inr ⟨hb, busWrite_bootRom s a v hb⟩)
    · exact .inl ⟨⟨h, hb⟩, busWrite_ok s a v ⟨h, hb⟩⟩

/-! ## The data accesses of an instruction -/

theorem readByteThen_ok (k : Byte → State → State) (h : Readable a) :
    readByteThen a k s =
      k (s.busByte a) (((s.setStage (.read (.read8 a))).tick).log (.read a (s.busByte a))) := by
  simp [readByteThen, readCycle, busRead_ok _ _ h]

theorem readByteThen_unmapped (k : Byte → State → State) (h : regionOf a = none) :
    readByteThen a k s = ((s.setStage (.read (.read8 a))).tick).raise (.unmappedAddress a false s.pc) := by
  simp [readByteThen, readCycle, busRead_unmapped _ _ h]

theorem writeByte_ok (h : Writable a) :
    writeByte a v s =
      (((((s.setStage (.write (.write8 a v))).tick).putByte a v).log (.write a v)).setStage .fetch) := by
  simp [writeByte, writeCycle, busWrite_ok _ _ _ h]

theorem writeByte_unmapped (h : regionOf a = none) :
    writeByte a v s = ((s.setStage (.write (.write8 a v))).tick).raise (.unmappedAddress a true s.pc) := by
  simp [writeByte, writeCycle, busWrite_unmapped _ _ _ h]

theorem writeByte_bootRom (h : regionOf a = some .bootRom) :
    writeByte a v s = ((s.setStage (.write (.write8 a v))).tick).raise (.bootRomWrite a s.pc) := by
  simp [writeByte, writeCycle, busWrite_bootRom _ _ _ h]

theorem writeHighByte_ok (h : Writable a) :
    writeHighByte a v s =
      (((((s.setStage (.write (.write16Hi a v))).tick).putByte a v).log (.write a v)).setStage .fetch) := by
  simp [writeHighByte, writeCycle, busWrite_ok _ _ _ h]

theorem writeHighByte_unmapped (h : regionOf a = none) :
    writeHighByte a v s = ((s.setStage (.write (.write16Hi a v))).tick).raise (.unmappedAddress a true s.pc) := by
  simp [writeHighByte, writeCycle, busWrite_unmapped _ _ _ h]

theorem writeHighByte_bootRom (h : regionOf a = some .bootRom) :
    writeHighByte a v s = ((s.setStage (.write (.write16Hi a v))).tick).raise (.bootRomWrite a s.pc) := by
  simp [writeHighByte, writeCycle, busWrite_bootRom _ _ _ h]

theorem writeWord_ok (w : Word) (h : Writable a) :
    writeWord a w s =
      writeHighByte (a + 1) (hiByte w)
        (((s.setStage (.write (.write16 a w))).tick.putByte a (loByte w)).log (.write a (loByte w))) := by
  simp [writeWord, writeCycle, busWrite_ok _ _ _ h]

theorem writeWord_unmapped (w : Word) (h : regionOf a = none) :
    writeWord a w s = ((s.setStage (.write (.write16 a w))).tick).raise (.unmappedAddress a true s.pc) := by
  simp [writeWord, writeCycle, busWrite_unmapped _ _ _ h]

theorem writeWord_bootRom (w : Word) (h : regionOf a = some .bootRom) :
    writeWord a w s = ((s.setStage (.write (.write16 a w))).tick).raise (.bootRomWrite a s.pc) := by
  simp [writeWord, writeCycle, busWrite_bootRom _ _ _ h]

end Sys2Proof.Machine
end

