-- ==== Sys2Proof/Laws/Memory.lean ====
section
/-! SUPPORT. The laws of the storage list: a read after a write, and that every operation keeps the canonical form and lists storage
addresses only. -/
namespace Sys2Proof.Machine

variable (m : Memory) (a x : Nat) (v : Byte)

/-! ## Read after write -/

@[simp] theorem Memory.read_nil : Memory.read [] x = Memory.unlisted := rfl

theorem Memory.read_eq_unlisted (h : ∀ c ∈ m, c.1 ≠ x) : Memory.read m x = Memory.unlisted := by
  induction m with
  | nil => rfl
  | cons c m ih =>
    simp only [Memory.read]
    rw [if_neg (h c (by simp)), ih (fun c' hc => h c' (by simp [hc]))]

theorem Memory.read_erase_self : Memory.read (Memory.erase m a) a = Memory.unlisted :=
  Memory.read_eq_unlisted _ _ (by intro c hc; simpa [Memory.erase] using (List.mem_filter.mp hc).2)

theorem Memory.read_filter (p : Host.Cell → Bool) (h : ∀ c ∈ m, c.1 = x → p c = true) :
    Memory.read (m.filter p) x = Memory.read m x := by
  induction m with
  | nil => rfl
  | cons c m ih =>
    have ih := ih (fun c' hc => h c' (by simp [hc]))
    by_cases hc : c.1 = x
    · simp [Memory.read, h c (by simp) hc, hc]
    · by_cases hp : p c <;> simp [Memory.read, hc, hp, ih]

theorem Memory.read_erase_of_ne (h : x ≠ a) : Memory.read (Memory.erase m a) x = Memory.read m x :=
  Memory.read_filter _ _ _ (by rintro c - rfl; simpa using h)

theorem Memory.read_insert_self (h : ∀ c ∈ m, c.1 ≠ a) : Memory.read (Memory.insert m a v) a = v := by
  induction m with
  | nil => simp [Memory.insert, Memory.read]
  | cons c m ih =>
    have hc := h c (by simp)
    have ih := ih (fun c' hc => h c' (by simp [hc]))
    by_cases hl : a < c.1 <;> simp [Memory.insert, Memory.read, hl, hc, ih]

theorem Memory.read_insert_of_ne (h : x ≠ a) : Memory.read (Memory.insert m a v) x = Memory.read m x := by
  have h' : a ≠ x := fun e => h e.symm
  induction m with
  | nil => simp [Memory.insert, Memory.read, h']
  | cons c m ih => by_cases hl : a < c.1 <;> simp [Memory.insert, Memory.read, hl, h', ih]

/-- A read after a write, of any memory. -/
theorem Memory.read_write : Memory.read (Memory.write m a v) x = if x = a then v else Memory.read m x := by
  unfold Memory.write
  by_cases hx : x = a
  · subst hx
    rw [if_pos rfl]
    by_cases hv : v = Memory.unlisted
    · rw [if_pos hv, Memory.read_erase_self, hv]
    · rw [if_neg hv, Memory.read_insert_self]
      intro c hc
      simpa [Memory.erase] using (List.mem_filter.mp hc).2
  · rw [if_neg hx]
    by_cases hv : v = Memory.unlisted
    · rw [if_pos hv, Memory.read_erase_of_ne _ _ _ hx]
    · rw [if_neg hv, Memory.read_insert_of_ne _ _ _ _ hx, Memory.read_erase_of_ne _ _ _ hx]

/-! ## The canonical form -/

theorem Memory.wf_nil : Memory.wf [] := ⟨List.Pairwise.nil, by simp⟩

theorem Memory.filter_wf (p : Host.Cell → Bool) (h : m.wf) : Memory.wf (m.filter p) :=
  ⟨h.1.filter p, fun c hc => h.2 c (List.mem_filter.mp hc).1⟩

theorem Memory.erase_wf (h : m.wf) : (Memory.erase m a).wf := Memory.filter_wf _ _ h

theorem Memory.mem_insert (c : Host.Cell) (h : c ∈ Memory.insert m a v) : c = (a, v) ∨ c ∈ m := by
  induction m with
  | nil => simpa [Memory.insert] using h
  | cons d m ih =>
    simp only [Memory.insert] at h
    split at h
    · simpa using h
    · rcases List.mem_cons.mp h with rfl | h
      · simp
      · rcases ih h with h | h <;> simp [h]

theorem Memory.insert_wf (h : m.wf) (hn : ∀ c ∈ m, c.1 ≠ a) (hv : v ≠ Memory.unlisted) : (Memory.insert m a v).wf := by
  refine ⟨?_, fun c hc => ?_⟩
  · replace h := h.1
    induction m with
    | nil => simp [Memory.insert]
    | cons d m ih =>
      rw [List.pairwise_cons] at h
      simp only [Memory.insert]
      split
      · next hl =>
        refine List.pairwise_cons.mpr ⟨fun c hc => ?_, List.pairwise_cons.mpr h⟩
        rcases List.mem_cons.mp hc with rfl | hc
        · exact hl
        · exact Nat.lt_trans hl (h.1 c hc)
      · next hl =>
        refine List.pairwise_cons.mpr ⟨fun c hc => ?_, ih (fun c hc => hn c (by simp [hc])) h.2⟩
        have := hn d (by simp)
        rcases Memory.mem_insert m a v c hc with rfl | hc
        · show d.1 < a
          omega
        · exact h.1 c hc
  · rcases Memory.mem_insert m a v c hc with rfl | hc
    · exact hv
    · exact h.2 c hc

/-- A write keeps the canonical form. -/
theorem Memory.write_wf (h : m.wf) : (Memory.write m a v).wf := by
  unfold Memory.write
  split
  · exact Memory.erase_wf m a h
  · next hv =>
    exact Memory.insert_wf _ a v (Memory.erase_wf m a h)
      (by intro c hc; simpa [Memory.erase] using (List.mem_filter.mp hc).2) hv

/-- So does laying a run of bytes. -/
theorem Memory.store_wf (bytes : List Byte) (h : m.wf) : (Memory.store m a bytes).wf := by
  induction bytes generalizing m a with
  | nil => exact h
  | cons b bs ih => exact ih _ _ (Memory.write_wf m _ b h)

/-- What a write lists: the cell itself, or cells that were there. -/
theorem Memory.mem_write (c : Host.Cell) (h : c ∈ Memory.write m a v) : c = (a, v) ∨ c ∈ m := by
  unfold Memory.write at h
  split at h
  · exact .inr (List.mem_filter.mp h).1
  · rcases Memory.mem_insert _ a v c h with h | h
    · exact .inl h
    · exact .inr (List.mem_filter.mp h).1

theorem Memory.mem_store (bytes : List Byte) (c : Host.Cell) (ha : a + bytes.length ≤ 65536)
    (h : c ∈ Memory.store m a bytes) : (a ≤ c.1 ∧ c.1 < a + bytes.length) ∨ c ∈ m := by
  induction bytes generalizing m a with
  | nil => exact .inr h
  | cons b bs ih =>
    simp only [List.length_cons] at ha ⊢
    rcases ih _ (a + 1) (by omega) h with h | h
    · left; omega
    · rcases Memory.mem_write _ _ _ _ h with rfl | h
      · left
        show a ≤ a % 65536 ∧ a % 65536 < a + (bs.length + 1)
        rw [Nat.mod_eq_of_lt (by omega)]
        omega
      · exact .inr h

/-- The bytes laid from an address up, where the run does not pass the end of the address space. -/
theorem Memory.read_store (bytes : List Byte) (ha : a + bytes.length ≤ 65536) :
    Memory.read (Memory.store m a bytes) x =
      if a ≤ x ∧ x < a + bytes.length then bytes.getD (x - a) 0 else Memory.read m x := by
  induction bytes generalizing m a with
  | nil =>
    rw [if_neg (by simp)]
    rfl
  | cons b bs ih =>
    simp only [List.length_cons] at ha ⊢
    rw [Memory.store, ih _ (a + 1) (by omega), Memory.read_write, Nat.mod_eq_of_lt (by omega)]
    by_cases hx : x = a
    · subst hx
      rw [if_neg (by omega), if_pos rfl, if_pos (by omega)]
      simp
    · rw [if_neg hx]
      by_cases h : a + 1 ≤ x ∧ x < a + 1 + bs.length
      · rw [if_pos h, if_pos (by omega)]
        obtain ⟨k, rfl⟩ : ∃ k, x = a + 1 + k := ⟨x - (a + 1), by omega⟩
        rw [show a + 1 + k - (a + 1) = k by omega, show a + 1 + k - a = k + 1 by omega]
        simp
      · rw [if_neg h, if_neg (by omega)]

/-- In canonical form, memories that read alike are equal: equal memories are equal data. -/
theorem Memory.eq_of_read_eq (m' : Memory) (h : m.wf) (h' : m'.wf) (hr : ∀ x, m.read x = m'.read x) : m = m' := by
  obtain ⟨hp, hn⟩ := h
  obtain ⟨hp', hn'⟩ := h'
  have low : ∀ (m : Memory) (x : Nat), (∀ e ∈ m, x < e.1) → m.read x = Memory.unlisted :=
    fun m x h => Memory.read_eq_unlisted m x (fun e he => by have := h e he; omega)
  induction m generalizing m' with
  | nil =>
    cases m' with
    | nil => rfl
    | cons d m' =>
      have := hr d.1
      simp only [Memory.read, if_true] at this
      exact absurd this.symm (hn' d (by simp))
  | cons c m ih =>
    cases m' with
    | nil =>
      have := hr c.1
      simp only [Memory.read, if_true] at this
      exact absurd this (hn c (by simp))
    | cons d m' =>
      rw [List.pairwise_cons] at hp hp'
      have hc := hr c.1
      have hd := hr d.1
      have e1 : c.1 = d.1 := by
        rcases Nat.lt_trichotomy c.1 d.1 with hlt | heq | hgt
        · simp only [Memory.read, if_true] at hc
          rw [if_neg (by omega), low m' c.1 (fun e he => Nat.lt_trans hlt (hp'.1 e he))] at hc
          exact absurd hc (hn c (by simp))
        · exact heq
        · simp only [Memory.read, if_true] at hd
          rw [if_neg (by omega), low m d.1 (fun e he => Nat.lt_trans hgt (hp.1 e he))] at hd
          exact absurd hd.symm (hn' d (by simp))
      have e2 : c.2 = d.2 := by simpa [Memory.read, e1] using hc
      obtain rfl : c = d := Prod.ext e1 e2
      congr 1
      refine ih m' ?_ hp.2 (fun e he => hn e (by simp [he])) hp'.2 (fun e he => hn' e (by simp [he]))
      intro x
      have hx := hr x
      simp only [Memory.read] at hx
      by_cases h : c.1 = x
      · subst h; rw [low m _ hp.1, low m' _ hp'.1]
      · simpa [h] using hx

/-! ## Writes through the bus -/

theorem isStorage_toNat (a : Word) (r : Region) (h : regionOf a = some r) : isStorage a.toNat = !r.isDevice := by
  unfold isStorage; unfold regionOf at h; rw [h]

/-- A byte put at an address changes storage there and nowhere else. -/
theorem State.putByte_read (s : State) (a : Word) (v : Byte) :
    (s.putByte a v).mem.read x = if x = a.toNat ∧ isStorage x then v else s.mem.read x := by
  unfold State.putByte
  cases hr : regionOf a with
  | none =>
    have : isStorage a.toNat = false := by unfold isStorage; unfold regionOf at hr; rw [hr]
    rw [if_neg (by rintro ⟨rfl, h⟩; simp [this] at h)]
  | some r =>
    have hs := isStorage_toNat a r hr
    cases hd : r.isDevice with
    | true =>
      rw [if_neg (by rintro ⟨rfl, h⟩; simp [hs, hd] at h)]
      simp only [hd, if_true]
    | false =>
      simp only [hd, Bool.false_eq_true, if_false, Memory.read_write]
      by_cases hx : x = a.toNat
      · subst hx; simp [hs, hd]
      · simp [hx]

theorem State.putByte_wf (s : State) (a : Word) (v : Byte) (h : s.mem.wf) : (s.putByte a v).mem.wf := by
  unfold State.putByte
  split
  · split
    · exact h
    · exact Memory.write_wf _ _ _ h
  · exact h

theorem State.putByte_storage (s : State) (a : Word) (v : Byte) (h : ∀ c ∈ s.mem, isStorage c.1 = true) :
    ∀ c ∈ (s.putByte a v).mem, isStorage c.1 = true := by
  intro c hc
  unfold State.putByte at hc
  split at hc
  · next r hr =>
    split at hc
    · exact h c hc
    · next hd =>
      rcases Memory.mem_write _ _ _ _ hc with rfl | hc
      · simpa [isStorage_toNat a r hr] using hd
      · exact h c hc
  · exact h c hc

/-- The reset state lists nothing, so its memory has the canonical form. -/
theorem State.reset_mem : State.reset.mem = [] := rfl

/-- The reset state is construction with the erased image. -/
theorem State.reset_eq_construct : State.reset = State.construct BootImage.erased .znh := by decide +kernel

/-! ## Construction -/

@[simp] theorem State.constructWith_mem (mode : Inc8Flags) : (State.constructWith m mode).mem = m := rfl

@[simp] theorem State.constructWith_inc8Flags (mode : Inc8Flags) : (State.constructWith m mode).inc8Flags = mode := rfl

@[simp] theorem State.constructWith_stage (mode : Inc8Flags) : (State.constructWith m mode).stage = .fetch := rfl

@[simp] theorem State.constructWith_flt (mode : Inc8Flags) : (State.constructWith m mode).flt = none := rfl

@[simp] theorem State.constructWith_ime (mode : Inc8Flags) : (State.constructWith m mode).ime = false := rfl

/-- A constructed memory holds the image at 0 to 255 and zero everywhere else (R290). -/
theorem State.read_construct (image : BootImage) (mode : Inc8Flags) :
    (State.construct image mode).mem.read x = if h : x < 256 then image[x] else Memory.unlisted := by
  show Memory.read (Memory.store [] 0 image.toList) x = _
  rw [Memory.read_store _ _ _ _ (by simp)]
  by_cases h : x < 256
  · simp [h]
  · simp [h]

theorem State.construct_wf (image : BootImage) (mode : Inc8Flags) : (State.construct image mode).mem.wf :=
  Memory.store_wf _ _ _ Memory.wf_nil

/-- Bytes from outside make a boot image exactly when they are 256 (R292). -/
theorem BootImage.ofBytes_eq_none_iff (bytes : List Byte) : BootImage.ofBytes? bytes = none ↔ bytes.length ≠ 256 := by
  unfold BootImage.ofBytes?
  by_cases h : bytes.length = 256 <;> simp [BootImage.wf, h]

theorem BootImage.toList_ofBytes (bytes : List Byte) (image : BootImage) (h : BootImage.ofBytes? bytes = some image) :
    image.toList = bytes := by
  unfold BootImage.ofBytes? at h
  split at h
  · cases h; rfl
  · cases h

end Sys2Proof.Machine
end

