-- ==== Sys2Proof/Laws/Cycle.lean ====
section
/-! SUPPORT. What one M-cycle can do, said once: bus accesses touch storage, history and FLT alone; decode and execute touch registers
and control state alone; so an M-cycle leaves memory and history as they were, or makes the one access of its stage. Invariants
of the machine are derived from these. -/
namespace Sys2Proof.Machine

/-- Two states alike in everything but storage, bus history and FLT. -/
structure SameCore (s t : State) : Prop where
  bc : t.bc = s.bc
  de : t.de = s.de
  hl : t.hl = s.hl
  a : t.a = s.a
  f : t.f = s.f
  sp : t.sp = s.sp
  pc : t.pc = s.pc
  stage : t.stage = s.stage
  opc : t.opc = s.opc
  pfx : t.pfx = s.pfx
  ime : t.ime = s.ime
  inc8Flags : t.inc8Flags = s.inc8Flags
  clock : t.clock = s.clock

variable (s : State) (a : Word) (v : Byte)

/-! ## Bus accesses and descriptor steps -/

theorem busRead_core : SameCore s (busRead a s).state := by
  rcases busRead_cases s a with ⟨-, e⟩ | ⟨-, e⟩ <;> rw [e] <;> constructor <;> rfl

theorem busWrite_core : SameCore s (busWrite a v s).state := by
  rcases busWrite_cases s a v with ⟨-, e⟩ | ⟨-, e⟩ | ⟨-, e⟩ <;> rw [e] <;> constructor <;> simp [Res.state]

theorem srcStep_core (src : Src) : SameCore s (srcStep src s).state := by
  cases src with
  | read8 a | read16 a | read16Hi a lo =>
    have h := busRead_core s a
    simp only [srcStep]
    generalize busRead a s = r at h
    cases r <;> exact h
  | none | val8 v | val16 v => constructor <;> rfl

theorem dstStep_core (dst : Dst) : SameCore s (dstStep dst s).state := by
  cases dst with
  | write8 a v | write16Hi a v =>
    have h := busWrite_core s a v
    simp only [dstStep]
    generalize busWrite a v s = r at h
    cases r <;> exact h
  | write16 a v =>
    have h := busWrite_core s a (loByte v)
    simp only [dstStep]
    generalize busWrite a (loByte v) s = r at h
    cases r <;> exact h
  | none | done => constructor <;> rfl

/-- The byte put at an address depends on storage alone. -/
theorem State.putByte_mem_congr {s t : State} (h : s.mem = t.mem) : (s.putByte a v).mem = (t.putByte a v).mem := by
  unfold State.putByte
  split
  · split <;> simp [h]
  · exact h

/-! ## Decode and execute -/

/-- Two states alike in storage, bus history and the control state that no execution changes. -/
structure SameSurroundings (s t : State) : Prop where
  mem : t.mem = s.mem
  history : t.history = s.history
  ime : t.ime = s.ime
  inc8Flags : t.inc8Flags = s.inc8Flags
  clock : t.clock = s.clock
  opc : t.opc = s.opc
  pfx : t.pfx = s.pfx

theorem SameSurroundings.trans {s t u : State} (h : SameSurroundings s t) (h' : SameSurroundings t u) :
    SameSurroundings s u :=
  ⟨h'.mem.trans h.mem, h'.history.trans h.history, h'.ime.trans h.ime, h'.inc8Flags.trans h.inc8Flags,
    h'.clock.trans h.clock, h'.opc.trans h.opc, h'.pfx.trans h.pfx⟩

theorem executeFamily_surroundings {f : Family} {x : SrcValue} {s t : State} (h : executeFamily f x s = some t) :
    SameSurroundings s t := by
  cases f <;> cases x <;> simp only [executeFamily] at h <;> cases h
  case ldPairImm.word p v => cases p <;> exact ⟨rfl, rfl, rfl, rfl, rfl, rfl, rfl⟩
  case ldMemA.byte p v => constructor <;> simp
  case ldSlotSlot.byte y z v => cases y <;> constructor <;> simp [slotDst]
  case ldSlotImm.byte y v => cases y <;> constructor <;> simp [slotDst]
  case incSlot.byte y v => cases y <;> constructor <;> simp [slotDst]
  case incPair.unit p => cases p <;> exact ⟨rfl, rfl, rfl, rfl, rfl, rfl, rfl⟩
  case jr.byte cc v => split <;> exact ⟨rfl, rfl, rfl, rfl, rfl, rfl, rfl⟩
  all_goals exact ⟨rfl, rfl, rfl, rfl, rfl, rfl, rfl⟩

/-- Execution latches nothing. -/
theorem executeFamily_flt {f : Family} {x : SrcValue} {s t : State} (h : executeFamily f x s = some t) : t.flt = s.flt := by
  cases f <;> cases x <;> simp only [executeFamily] at h <;> cases h
  case ldPairImm.word p v => cases p <;> rfl
  case ldMemA.byte p v => cases p <;> rfl
  case ldSlotSlot.byte y z v => cases y <;> simp [slotDst]
  case ldSlotImm.byte y v => cases y <;> simp [slotDst]
  case incSlot.byte y v => cases y <;> simp [slotDst]
  case incPair.unit p => cases p <;> rfl
  case jr.byte cc v => split <;> rfl
  all_goals rfl

/-- An execution that answers a state is that of the family the latches select. -/
theorem executePhase_inv {x : SrcValue} {s t : State} (h : executePhase x s = .next t) :
    ∃ f, familyOf s.pfx s.opc = some f ∧ executeFamily f x s = some t := by
  unfold executePhase at h
  split at h
  · cases h
  · next f hf =>
    split at h
    · next u hu => cases h; exact ⟨f, hf, hu⟩
    · cases h

theorem sourceOf_surroundings (f : Family) : SameSurroundings s (sourceOf f s).2 := by
  cases f <;> constructor <;> simp [sourceOf]

/-- A decode that answers a state raised `UnimplementedOpcode`, executed, or left a `Read` stage of its family's source. -/
theorem decodePhase_inv {s t : State} (h : decodePhase s = .next t) :
    (familyOf s.pfx s.opc = none ∧ t = s.raise (.unimplementedOpcode s.opc s.pfx s.pc)) ∨
      ∃ f, familyOf s.pfx s.opc = some f ∧
        ((∃ x, (sourceOf f s).1.value? = some x ∧ executeFamily f x (sourceOf f s).2 = some t) ∨
          ((sourceOf f s).1.value? = none ∧ t = (sourceOf f s).2.setStage (.read (sourceOf f s).1))) := by
  unfold decodePhase at h
  split at h
  · next hf => cases h; exact .inl ⟨hf, rfl⟩
  · next f hf =>
    refine .inr ⟨f, hf, ?_⟩
    split at h
    · next x hx =>
      obtain ⟨f', hf', ht⟩ := executePhase_inv h
      rw [(sourceOf_surroundings s f).opc, (sourceOf_surroundings s f).pfx, hf] at hf'
      cases hf'
      exact .inl ⟨x, hx, ht⟩
    · next hx => cases h; exact .inr ⟨hx, rfl⟩

theorem decodePhase_surroundings {s t : State} (h : decodePhase s = .next t) : SameSurroundings s t := by
  rcases decodePhase_inv h with ⟨-, rfl⟩ | ⟨f, -, ⟨x, -, hx⟩ | ⟨-, rfl⟩⟩
  · exact ⟨rfl, rfl, rfl, rfl, rfl, rfl, rfl⟩
  · exact (sourceOf_surroundings s f).trans (executeFamily_surroundings hx)
  · exact (sourceOf_surroundings s f).trans ⟨rfl, rfl, rfl, rfl, rfl, rfl, rfl⟩

/-! ## One M-cycle -/

/-- An M-cycle of a machine with no fault latched counts one, keeps IME and the parameter, and makes no access, one read or one
write. -/
theorem cycle_effect {s t : State} (hf : s.flt = none) (h : cycle s = .next t) :
    t.clock = s.clock + 1 ∧ t.ime = s.ime ∧ t.inc8Flags = s.inc8Flags ∧
      ((t.mem = s.mem ∧ t.history = s.history) ∨
        (∃ a v, Readable a ∧ t.mem = s.mem ∧ t.history = .read a v :: s.history) ∨
        ∃ a v, Writable a ∧ t.mem = (s.putByte a v).mem ∧ t.history = .write a v :: s.history) := by
  unfold cycle at h
  simp only [hf, Option.isSome_none, Bool.false_eq_true, if_false] at h
  split at h
  · split at h
    · cases h; simp
    · unfold fetchCycle at h
      rcases busRead_cases s.tick s.tick.pc with ⟨h2, e2⟩ | ⟨h2, e2⟩
      · simp only [e2] at h
        split at h
        · cases h; exact ⟨rfl, rfl, rfl, .inr (.inl ⟨_, _, h2, rfl, rfl⟩)⟩
        · obtain ⟨b1, b2, b3, b4, b5, -, -⟩ := decodePhase_surroundings h
          exact ⟨b5, b3, b4, .inr (.inl ⟨_, _, h2, b1, b2⟩)⟩
      · simp only [e2] at h; cases h; exact ⟨rfl, rfl, rfl, .inl ⟨rfl, rfl⟩⟩
  · unfold fetchPrefixedCycle at h
    rcases busRead_cases s.tick s.tick.pc with ⟨h2, e2⟩ | ⟨h2, e2⟩
    · simp only [e2] at h
      obtain ⟨b1, b2, b3, b4, b5, -, -⟩ := decodePhase_surroundings h
      exact ⟨b5, b3, b4, .inr (.inl ⟨_, _, h2, b1, b2⟩)⟩
    · simp only [e2] at h; cases h; exact ⟨rfl, rfl, rfl, .inl ⟨rfl, rfl⟩⟩
  · next src _ =>
    unfold readStageCycle at h
    cases src with
    | none | val8 v | val16 v =>
      simp only [srcStep, Src.value?] at h
      obtain ⟨f, -, h2⟩ := executePhase_inv h
      obtain ⟨b1, b2, b3, b4, b5, -, -⟩ := executeFamily_surroundings h2
      exact ⟨b5, b3, b4, .inl ⟨b1, b2⟩⟩
    | read8 a | read16Hi a lo =>
      simp only [srcStep] at h
      rcases busRead_cases s.tick a with ⟨h2, e2⟩ | ⟨h2, e2⟩
      · simp only [e2, Src.value?] at h
        obtain ⟨f, -, h3⟩ := executePhase_inv h
        obtain ⟨b1, b2, b3, b4, b5, -, -⟩ := executeFamily_surroundings h3
        exact ⟨b5, b3, b4, .inr (.inl ⟨_, _, h2, b1, b2⟩)⟩
      · simp only [e2] at h; cases h; exact ⟨rfl, rfl, rfl, .inl ⟨rfl, rfl⟩⟩
    | read16 a =>
      simp only [srcStep] at h
      rcases busRead_cases s.tick a with ⟨h2, e2⟩ | ⟨h2, e2⟩
      · simp only [e2, Src.value?] at h
        cases h; exact ⟨rfl, rfl, rfl, .inr (.inl ⟨_, _, h2, rfl, rfl⟩)⟩
      · simp only [e2] at h; cases h; exact ⟨rfl, rfl, rfl, .inl ⟨rfl, rfl⟩⟩
  · cases h; exact ⟨rfl, rfl, rfl, .inl ⟨rfl, rfl⟩⟩
  · next dst _ =>
    unfold writeStageCycle at h
    cases dst with
    | none | done => simp only [dstStep] at h; cases h; exact ⟨rfl, rfl, rfl, .inl ⟨rfl, rfl⟩⟩
    | write8 a v | write16Hi a v =>
      simp only [dstStep] at h
      rcases busWrite_cases s.tick a v with ⟨h2, e2⟩ | ⟨h2, e2⟩ | ⟨h2, e2⟩ <;> simp only [e2] at h <;> cases h
      · exact ⟨by simp, by simp, by simp, .inr (.inr ⟨a, v, h2, State.putByte_mem_congr a v rfl, by simp⟩)⟩
      · exact ⟨rfl, rfl, rfl, .inl ⟨rfl, rfl⟩⟩
      · exact ⟨rfl, rfl, rfl, .inl ⟨rfl, rfl⟩⟩
    | write16 a v =>
      simp only [dstStep] at h
      rcases busWrite_cases s.tick a (loByte v) with ⟨h2, e2⟩ | ⟨h2, e2⟩ | ⟨h2, e2⟩ <;> simp only [e2] at h <;> cases h
      · exact ⟨by simp, by simp, by simp,
          .inr (.inr ⟨a, loByte v, h2, State.putByte_mem_congr a _ rfl, by simp⟩)⟩
      · exact ⟨rfl, rfl, rfl, .inl ⟨rfl, rfl⟩⟩
      · exact ⟨rfl, rfl, rfl, .inl ⟨rfl, rfl⟩⟩

end Sys2Proof.Machine
end

