-- ==== Sys2Proof/Laws/Fetch.lean ====
section
/-! SUPPORT. Fetching: what one read M-cycle answers, what a run of reads gives back, and that the fetch of an instruction is that run
followed by the latches. -/
namespace Sys2Proof.Machine

variable (s : State) (a : Word)

/-! ## One read M-cycle -/

theorem readCycle_ok (h : Readable a) : readCycle a s = .ok (s.busByte a) (s.tick.log (.read a (s.busByte a))) := by
  simp [readCycle, busRead_ok _ _ h]

theorem readCycle_unmapped (h : regionOf a = none) :
    readCycle a s = .raised (s.tick.raise (.unmappedAddress a false s.pc)) := by
  simp [readCycle, busRead_unmapped _ _ h]

/-- What a read M-cycle that answers a byte says. -/
theorem readCycle_inv {b : Byte} {t : State} (h : readCycle a s = .ok b t) :
    Readable a ∧ b = s.busByte a ∧ t = s.tick.log (.read a b) := by
  by_cases hr : regionOf a = none
  · rw [readCycle_unmapped s a hr] at h; cases h
  · rw [readCycle_ok s a hr] at h; cases h; exact ⟨hr, rfl, rfl⟩

/-- A read M-cycle answers the same byte in a state with the same memory and bus history. -/
theorem readCycle_congr {b : Byte} {t : State} (u : State) (h : readCycle a s = .ok b t) (hm : u.mem = s.mem)
    (hh : u.history = s.history) : readCycle a u = .ok b (u.tick.log (.read a b)) := by
  obtain ⟨hr, hb, -⟩ := readCycle_inv s a h
  have : u.busByte a = b := by rw [hb]; unfold State.busByte; rw [hm, hh]
  rw [readCycle_ok u a hr, this]

/-! ## A run of reads -/

theorem readRun_zero_inv {bytes : List Byte} {t : State} (h : readRun 0 a s = .ok bytes t) : bytes = [] ∧ t = s := by
  simp only [readRun] at h; cases h; exact ⟨rfl, rfl⟩

theorem readRun_succ_inv {n : Nat} {bytes : List Byte} {t : State} (h : readRun (n + 1) a s = .ok bytes t) :
    ∃ b bs u, bytes = b :: bs ∧ readCycle a s = .ok b u ∧ readRun n (a + 1) u = .ok bs t := by
  simp only [readRun] at h
  split at h
  · cases h
  · next b u hu =>
    split at h
    · next bs v hv => cases h; exact ⟨b, bs, u, rfl, hu, hv⟩
    · cases h

/-- A run of reads changes the bus history and the count of M-cycles alone. -/
theorem readRun_inv {n : Nat} {bytes : List Byte} {t : State} (h : readRun n a s = .ok bytes t) :
    t = { s with history := fetchEvents a bytes ++ s.history, clock := s.clock + n } ∧ bytes.length = n := by
  induction n generalizing a s bytes with
  | zero => obtain ⟨rfl, rfl⟩ := readRun_zero_inv _ _ h; exact ⟨rfl, rfl⟩
  | succ n ih =>
    obtain ⟨b, cs, u, rfl, h1, h2⟩ := readRun_succ_inv _ _ h
    obtain ⟨-, -, rfl⟩ := readCycle_inv _ _ h1
    obtain ⟨rfl, hl⟩ := ih _ _ h2
    refine ⟨?_, by simp [hl]⟩
    apply State.eq_of_fields <;> simp [fetchEvents]
    omega

/-! ## A step from a boundary -/

theorem step_of_ready (h : s.flt = none) (hs : s.stage = .fetch) (hp : s.polled = false) :
    step s = match fetchInstr s with
      | .raised s1 => .next s1
      | .ok i s1 => exec i s1 := by
  simp only [step, h, hs, hp, Option.isSome_none, Bool.false_eq_true, if_false, if_true]
  all_goals (cases fetchInstr s <;> rfl)

theorem step_of_polled (h : s.flt = none) (hs : s.stage = .fetch) (hp : s.polled = true) :
    step s = .next (s.tick.raise (.interruptDispatchUnimplemented s.pc)) := by
  simp [step, h, hs, hp]

theorem step_of_latched (h : s.flt ≠ none) : step s = .next s := by
  simp [step, Option.isSome_iff_ne_none.mpr h]

theorem cycle_of_latched (h : s.flt ≠ none) : cycle s = .next s := by
  simp [cycle, Option.isSome_iff_ne_none.mpr h]

/-! ## The fetch of one instruction -/

theorem immBytes_cases (f : Family) : f.immBytes = 0 ∨ f.immBytes = 1 ∨ f.immBytes = 2 := by
  cases f <;> simp [Family.immBytes]

/-- A prefixed family has no immediate bytes. -/
theorem familyOf_prefixed_immBytes {b : Byte} {f : Family} (h : familyOf true b = some f) : f.immBytes = 0 := by
  have hall : ∀ b : Byte, (familyOf true b).all (fun f => f.immBytes == 0) = true := by decide +kernel
  have := hall b
  rw [h] at this
  simpa using this

/-- The immediate bytes are a run of reads after the opcode byte, whatever the latches and the stage hold meanwhile. -/
theorem fetchImmediate_of_readRun {f : Family} {imm : List Byte} {t u : State} {i : Instr}
    (h : readRun f.immBytes (s.pc + 1) s = .ok imm t) (hi : instrOf f (imm.headD 0) (imm.tail.headD 0) = some i)
    (hpc : u.pc = s.pc) (hm : u.mem = s.mem) (hh : u.history = s.history) :
    fetchImmediate f u =
      .ok i ({ u with history := t.history, clock := u.clock + f.immBytes, stage := .fetch }) := by
  rcases immBytes_cases f with hn | hn | hn
  · rw [hn] at h
    obtain ⟨rfl, rfl⟩ := readRun_zero_inv _ _ h
    simp only [fetchImmediate, hn, fetched]
    rw [show instrOf f 0 0 = some i from hi]
    simp [State.setStage, ← hh]
  · rw [hn] at h
    obtain ⟨b, bs, v, rfl, h1, h2⟩ := readRun_succ_inv _ _ h
    obtain ⟨rfl, rfl⟩ := readRun_zero_inv _ _ h2
    obtain ⟨-, -, rfl⟩ := readCycle_inv _ _ h1
    simp only [fetchImmediate, hn, hpc]
    rw [readCycle_congr _ _ (u.setStage (.read (.read8 (s.pc + 1)))) h1 hm hh]
    simp only [fetched]
    rw [show instrOf f b 0 = some i from hi]
    simp only [Res.ok.injEq, true_and]
    apply State.eq_of_fields <;> simp [hh, hpc]
  · rw [hn] at h
    obtain ⟨b, bs, v, rfl, h1, h2⟩ := readRun_succ_inv _ _ h
    obtain ⟨c, cs, w, rfl, h3, h4⟩ := readRun_succ_inv _ _ h2
    obtain ⟨rfl, rfl⟩ := readRun_zero_inv _ _ h4
    obtain ⟨-, -, rfl⟩ := readCycle_inv _ _ h1
    simp only [fetchImmediate, hn, hpc]
    rw [readCycle_congr _ _ (u.setStage (.read (.read16 (s.pc + 1)))) h1 hm hh]
    simp only
    generalize hx : ((u.setStage (.read (.read16 (s.pc + 1)))).tick.log (.read (s.pc + 1) b)).setStage
      (.read (.read16Hi (s.pc + 1 + 1) b)) = x
    rw [readCycle_congr _ _ x h3 (by subst hx; exact hm) (by subst hx; simp [hh])]
    simp only [fetched]
    rw [show instrOf f b c = some i from hi]
    obtain ⟨-, -, rfl⟩ := readCycle_inv _ _ h3
    simp only [Res.ok.injEq, true_and]
    subst hx
    apply State.eq_of_fields <;> simp [hh, hpc]

end Sys2Proof.Machine
end

