-- ==== Sys2Proof/Laws/Registers.lean ====
section
/-! SUPPORT. The laws of halves and words, of F as a byte, and of the register file's accessors. -/
namespace Sys2Proof.Machine

variable (hi lo : Byte) (v w : Word)

/-! ## Halves and words -/

theorem hiByte_toNat : (hiByte v).toNat = v.toNat / 256 := by
  have := v.isLt
  simp [hiByte, BitVec.extractLsb'_toNat, Nat.shiftRight_eq_div_pow]
  omega

theorem loByte_toNat : (loByte v).toNat = v.toNat % 256 := by
  simp [loByte, BitVec.extractLsb'_toNat]

theorem joinBytes_toNat : (joinBytes hi lo).toNat = hi.toNat * 256 + lo.toNat := by
  have := lo.isLt
  unfold joinBytes
  rw [BitVec.toNat_append, ← Nat.shiftLeft_add_eq_or_of_lt (by omega), Nat.shiftLeft_eq]

@[simp] theorem hiByte_joinBytes : hiByte (joinBytes hi lo) = hi := by
  apply BitVec.eq_of_toNat_eq
  have := lo.isLt
  rw [hiByte_toNat, joinBytes_toNat]; omega

@[simp] theorem loByte_joinBytes : loByte (joinBytes hi lo) = lo := by
  apply BitVec.eq_of_toNat_eq
  have := lo.isLt
  rw [loByte_toNat, joinBytes_toNat]; omega

@[simp] theorem joinBytes_halves : joinBytes (hiByte v) (loByte v) = v := by
  apply BitVec.eq_of_toNat_eq
  rw [joinBytes_toNat, hiByte_toNat, loByte_toNat]; omega

theorem hiByte_eq_ofNat : hiByte v = BitVec.ofNat 8 (v.toNat / 256) := by
  apply BitVec.eq_of_toNat_eq
  have := v.isLt
  rw [hiByte_toNat, BitVec.toNat_ofNat]; omega

theorem loByte_eq_ofNat : loByte v = BitVec.ofNat 8 v.toNat := by
  apply BitVec.eq_of_toNat_eq
  rw [loByte_toNat, BitVec.toNat_ofNat]

/-- `0xFF00 + n` never carries out of 16 bits (20_memory.md R79). -/
theorem highPage_eq_ofNat (n : Byte) : highPage n = BitVec.ofNat 16 (0xFF00 + n.toNat) := by
  apply BitVec.eq_of_toNat_eq
  have := n.isLt
  unfold highPage
  rw [joinBytes_toNat, BitVec.toNat_ofNat]
  simp; omega

/-! ## F as a byte (R30) -/

@[simp] theorem Flags.ofByte_toByte (f : Flags) : Flags.ofByte f.toByte = f := by
  rcases f with ⟨z, n, h, c⟩; cases z <;> cases n <;> cases h <;> cases c <;> rfl

theorem Flags.toByte_ofByte (b : Byte) : (Flags.ofByte b).toByte = b &&& 0xF0 := by
  revert b; decide +kernel

/-! ## Accessors -/

@[simp] theorem State.get16_set16_same (s : State) (p : Reg16) (h : p ≠ .af) : (s.set16 p v).get16 p = v := by
  cases p <;> first | rfl | exact absurd rfl h

@[simp] theorem State.get16_set16_other (s : State) (p q : Reg16) (h : q ≠ p) : (s.set16 p v).get16 q = s.get16 q := by
  cases p <;> cases q <;> first | rfl | exact absurd rfl h

@[simp] theorem State.get8_set8_same (s : State) (n : Reg8) (b : Byte) (h : n ≠ .f) : (s.set8 n b).get8 n = b := by
  cases n <;> simp [State.set8, State.get8] at h ⊢

@[simp] theorem State.get8_set8_other (s : State) (n k : Reg8) (b : Byte) (h : k ≠ n) :
    (s.set8 n b).get8 k = s.get8 k := by
  cases n <;> cases k <;> simp [State.set8, State.get8] at h ⊢

@[simp] theorem SlotReg.reg8_ne_f (r : SlotReg) : r.reg8 ≠ .f := by cases r <;> decide

@[simp] theorem PairSel.reg16_ne_af (p : PairSel) : p.reg16 ≠ .af := by cases p <;> decide

end Sys2Proof.Machine
end

