-- ==== Sys2Proof/Laws/Meanings.lean ====
section
/-! SUPPORT. The instructions by family: every instruction is of one of nineteen forms, and `exec` of a form is the shared operation of
its family. Proofs about "every instruction" split by form and cite these. -/
namespace Sys2Proof.Machine

variable (s : State)

/-! ## What `exec` answers, form by form -/

theorem exec_ldPairImm (p : PairSel) (n : Word) : exec (Form.ldPairImm p n) s = .next (loadPair p n s) := by
  cases p <;> rfl
theorem exec_storeA (p : MemSel) : exec (Form.storeA p) s = .next (storeThrough p s) := by cases p <;> rfl
theorem exec_loadA (p : MemSel) : exec (Form.loadA p) s = .next (loadThrough p s) := by cases p <;> rfl
theorem exec_xorReg (r : SlotReg) : exec (Form.xorReg r) s = .next (xorRegister r s) := by cases r <;> rfl
theorem exec_xorHlMem : exec .xorHlMem s = .next (xorMemory s) := rfl
theorem exec_copyReg (dst r : SlotReg) : exec (Form.copyReg dst r) s = .next (copyRegister dst r s) := by
  cases dst <;> cases r <;> rfl
theorem exec_loadReg (dst : SlotReg) : exec (Form.loadReg dst) s = .next (loadRegister dst s) := by cases dst <;> rfl
theorem exec_storeReg (r : SlotReg) : exec (Form.storeReg r) s = .next (storeRegister r s) := by cases r <;> rfl
theorem exec_ldhN8FromA (n : Byte) : exec (.ldhN8FromA n) s = .next (storeHighPage n 2 s) := rfl
theorem exec_ldhCFromA : exec .ldhCFromA s = .next (storeHighPage (s.get8 .c) 1 s) := rfl
theorem exec_immReg (dst : SlotReg) (n : Byte) : exec (Form.immReg dst n) s = .next (loadImmediate dst n s) := by
  cases dst <;> rfl
theorem exec_ldHlMemN8 (n : Byte) : exec (.ldHlMemN8 n) s = .next (storeImmediate n s) := rfl
theorem exec_incReg (r : SlotReg) : exec (Form.incReg r) s = .next (incRegister r s) := by cases r <;> rfl
theorem exec_incHlMem : exec .incHlMem s = .next (incMemory s) := rfl
theorem exec_incPair (p : PairSel) : exec (Form.incPair p) s = .next (incPair p s) := by cases p <;> rfl
theorem exec_jr (cc : Cond) (e : Byte) : exec (Form.jr cc e) s = .next (jumpRelative cc e s) := by cases cc <;> rfl
theorem exec_push (p : StackSel) : exec (Form.push p) s = .next (pushPair p s) := by cases p <;> rfl
theorem exec_bitReg (n : BitNum) (r : SlotReg) : exec (Form.bitReg n r) s = .next (bitRegister n r s) := by
  cases n <;> cases r <;> rfl
theorem exec_bitMem (n : BitNum) : exec (Form.bitMem n) s = .next (bitMemory n s) := by cases n <;> rfl

/-! ## Every instruction has a form -/

/-- The forms are all there is: what holds of every form holds of every instruction. -/
theorem Instr.by_form (P : Instr → Prop)
    (ldPairImm : ∀ p n, P (Form.ldPairImm p n)) (storeA : ∀ p, P (Form.storeA p)) (loadA : ∀ p, P (Form.loadA p))
    (xorReg : ∀ r, P (Form.xorReg r)) (xorHlMem : P .xorHlMem) (copyReg : ∀ dst r, P (Form.copyReg dst r))
    (loadReg : ∀ dst, P (Form.loadReg dst)) (storeReg : ∀ r, P (Form.storeReg r)) (ldhN8FromA : ∀ n, P (.ldhN8FromA n))
    (ldhCFromA : P .ldhCFromA) (immReg : ∀ dst n, P (Form.immReg dst n)) (ldHlMemN8 : ∀ n, P (.ldHlMemN8 n))
    (incReg : ∀ r, P (Form.incReg r)) (incHlMem : P .incHlMem) (incPair : ∀ p, P (Form.incPair p))
    (jr : ∀ cc e, P (Form.jr cc e)) (push : ∀ p, P (Form.push p)) (bitReg : ∀ n r, P (Form.bitReg n r))
    (bitMem : ∀ n, P (Form.bitMem n)) (i : Instr) : P i :=
  match i with
  | .ldBcN16 n => ldPairImm .bc n | .ldDeN16 n => ldPairImm .de n | .ldHlN16 n => ldPairImm .hl n
  | .ldSpN16 n => ldPairImm .sp n | .ldBcMemFromA => storeA .bc | .ldDeMemFromA => storeA .de | .ldHlIncFromA => storeA .hlInc
  | .ldHlDecFromA => storeA .hlDec | .ldAFromBcMem => loadA .bc | .ldAFromDeMem => loadA .de | .ldAFromHlInc => loadA .hlInc
  | .ldAFromHlDec => loadA .hlDec | .xorB => xorReg .b | .xorC => xorReg .c | .xorD => xorReg .d | .xorE => xorReg .e
  | .xorH => xorReg .h | .xorL => xorReg .l | .xorA => xorReg .a | .ldBFromB => copyReg .b .b | .ldBFromC => copyReg .b .c
  | .ldBFromD => copyReg .b .d | .ldBFromE => copyReg .b .e | .ldBFromH => copyReg .b .h | .ldBFromL => copyReg .b .l
  | .ldBFromA => copyReg .b .a | .ldCFromB => copyReg .c .b | .ldCFromC => copyReg .c .c | .ldCFromD => copyReg .c .d
  | .ldCFromE => copyReg .c .e | .ldCFromH => copyReg .c .h | .ldCFromL => copyReg .c .l | .ldCFromA => copyReg .c .a
  | .ldDFromB => copyReg .d .b | .ldDFromC => copyReg .d .c | .ldDFromD => copyReg .d .d | .ldDFromE => copyReg .d .e
  | .ldDFromH => copyReg .d .h | .ldDFromL => copyReg .d .l | .ldDFromA => copyReg .d .a | .ldEFromB => copyReg .e .b
  | .ldEFromC => copyReg .e .c | .ldEFromD => copyReg .e .d | .ldEFromE => copyReg .e .e | .ldEFromH => copyReg .e .h
  | .ldEFromL => copyReg .e .l | .ldEFromA => copyReg .e .a | .ldHFromB => copyReg .h .b | .ldHFromC => copyReg .h .c
  | .ldHFromD => copyReg .h .d | .ldHFromE => copyReg .h .e | .ldHFromH => copyReg .h .h | .ldHFromL => copyReg .h .l
  | .ldHFromA => copyReg .h .a | .ldLFromB => copyReg .l .b | .ldLFromC => copyReg .l .c | .ldLFromD => copyReg .l .d
  | .ldLFromE => copyReg .l .e | .ldLFromH => copyReg .l .h | .ldLFromL => copyReg .l .l | .ldLFromA => copyReg .l .a
  | .ldAFromB => copyReg .a .b | .ldAFromC => copyReg .a .c | .ldAFromD => copyReg .a .d | .ldAFromE => copyReg .a .e
  | .ldAFromH => copyReg .a .h | .ldAFromL => copyReg .a .l | .ldAFromA => copyReg .a .a | .ldBFromHlMem => loadReg .b
  | .ldCFromHlMem => loadReg .c | .ldDFromHlMem => loadReg .d | .ldEFromHlMem => loadReg .e | .ldHFromHlMem => loadReg .h
  | .ldLFromHlMem => loadReg .l | .ldAFromHlMem => loadReg .a | .ldHlMemFromB => storeReg .b | .ldHlMemFromC => storeReg .c
  | .ldHlMemFromD => storeReg .d | .ldHlMemFromE => storeReg .e | .ldHlMemFromH => storeReg .h | .ldHlMemFromL => storeReg .l
  | .ldHlMemFromA => storeReg .a | .ldBN8 n => immReg .b n | .ldCN8 n => immReg .c n | .ldDN8 n => immReg .d n
  | .ldEN8 n => immReg .e n | .ldHN8 n => immReg .h n | .ldLN8 n => immReg .l n | .ldAN8 n => immReg .a n | .incB => incReg .b
  | .incC => incReg .c | .incD => incReg .d | .incE => incReg .e | .incH => incReg .h | .incL => incReg .l | .incA => incReg .a
  | .incBc => incPair .bc | .incDe => incPair .de | .incHl => incPair .hl | .incSp => incPair .sp | .jrNz e => jr .nz e
  | .jrZ e => jr .z e | .jrNc e => jr .nc e | .jrC e => jr .c e | .pushBc => push .bc | .pushDe => push .de
  | .pushHl => push .hl | .pushAf => push .af | .bit0B => bitReg .n0 .b | .bit0C => bitReg .n0 .c | .bit0D => bitReg .n0 .d
  | .bit0E => bitReg .n0 .e | .bit0H => bitReg .n0 .h | .bit0L => bitReg .n0 .l | .bit0A => bitReg .n0 .a
  | .bit1B => bitReg .n1 .b | .bit1C => bitReg .n1 .c | .bit1D => bitReg .n1 .d | .bit1E => bitReg .n1 .e
  | .bit1H => bitReg .n1 .h | .bit1L => bitReg .n1 .l | .bit1A => bitReg .n1 .a | .bit2B => bitReg .n2 .b
  | .bit2C => bitReg .n2 .c | .bit2D => bitReg .n2 .d | .bit2E => bitReg .n2 .e | .bit2H => bitReg .n2 .h
  | .bit2L => bitReg .n2 .l | .bit2A => bitReg .n2 .a | .bit3B => bitReg .n3 .b | .bit3C => bitReg .n3 .c
  | .bit3D => bitReg .n3 .d | .bit3E => bitReg .n3 .e | .bit3H => bitReg .n3 .h | .bit3L => bitReg .n3 .l
  | .bit3A => bitReg .n3 .a | .bit4B => bitReg .n4 .b | .bit4C => bitReg .n4 .c | .bit4D => bitReg .n4 .d
  | .bit4E => bitReg .n4 .e | .bit4H => bitReg .n4 .h | .bit4L => bitReg .n4 .l | .bit4A => bitReg .n4 .a
  | .bit5B => bitReg .n5 .b | .bit5C => bitReg .n5 .c | .bit5D => bitReg .n5 .d | .bit5E => bitReg .n5 .e
  | .bit5H => bitReg .n5 .h | .bit5L => bitReg .n5 .l | .bit5A => bitReg .n5 .a | .bit6B => bitReg .n6 .b
  | .bit6C => bitReg .n6 .c | .bit6D => bitReg .n6 .d | .bit6E => bitReg .n6 .e | .bit6H => bitReg .n6 .h
  | .bit6L => bitReg .n6 .l | .bit6A => bitReg .n6 .a | .bit7B => bitReg .n7 .b | .bit7C => bitReg .n7 .c
  | .bit7D => bitReg .n7 .d | .bit7E => bitReg .n7 .e | .bit7H => bitReg .n7 .h | .bit7L => bitReg .n7 .l
  | .bit7A => bitReg .n7 .a | .bit0HlMem => bitMem .n0 | .bit1HlMem => bitMem .n1 | .bit2HlMem => bitMem .n2
  | .bit3HlMem => bitMem .n3 | .bit4HlMem => bitMem .n4 | .bit5HlMem => bitMem .n5 | .bit6HlMem => bitMem .n6
  | .bit7HlMem => bitMem .n7 | .xorHlMem => xorHlMem | .ldhCFromA => ldhCFromA | .incHlMem => incHlMem
  | .ldhN8FromA n => ldhN8FromA n | .ldHlMemN8 n => ldHlMemN8 n

/-- Every meaning answers a next state in every state: none stops the model. -/
theorem exec_answers_next (i : Instr) : ∃ t, exec i s = .next t := by
  revert i
  apply Instr.by_form <;> intros
  · exact ⟨_, exec_ldPairImm ..⟩
  · exact ⟨_, exec_storeA ..⟩
  · exact ⟨_, exec_loadA ..⟩
  · exact ⟨_, exec_xorReg ..⟩
  · exact ⟨_, exec_xorHlMem ..⟩
  · exact ⟨_, exec_copyReg ..⟩
  · exact ⟨_, exec_loadReg ..⟩
  · exact ⟨_, exec_storeReg ..⟩
  · exact ⟨_, exec_ldhN8FromA ..⟩
  · exact ⟨_, exec_ldhCFromA ..⟩
  · exact ⟨_, exec_immReg ..⟩
  · exact ⟨_, exec_ldHlMemN8 ..⟩
  · exact ⟨_, exec_incReg ..⟩
  · exact ⟨_, exec_incHlMem ..⟩
  · exact ⟨_, exec_incPair ..⟩
  · exact ⟨_, exec_jr ..⟩
  · exact ⟨_, exec_push ..⟩
  · exact ⟨_, exec_bitReg ..⟩
  · exact ⟨_, exec_bitMem ..⟩

end Sys2Proof.Machine
end

