-- ==== Sys2Proof/Laws/MemoryMap.lean ====
section
/-! SUPPORT. The region table read as a chain of tests, and the address space as the intervals of the table and its gaps in rising
order (20_memory.md R69, R77). -/
namespace Sys2Proof.Machine

variable (n : Nat)

/-- The region table as a chain of range tests. -/
theorem regionAt_eq : regionAt n =
    if 0x0000 ≤ n ∧ n ≤ 0x00FF then some .bootRom
    else if 0x8000 ≤ n ∧ n ≤ 0x9FFF then some .vram
    else if 0xC000 ≤ n ∧ n ≤ 0xDFFF then some .workRam
    else if 0xFE00 ≤ n ∧ n ≤ 0xFE9F then some .oam
    else if 0xFF00 ≤ n ∧ n ≤ 0xFF00 then some .joypad
    else if 0xFF10 ≤ n ∧ n ≤ 0xFF3F then some .audio
    else if 0xFF40 ≤ n ∧ n ≤ 0xFF4B then some .graphicsControl
    else if 0xFF80 ≤ n ∧ n ≤ 0xFFFE then some .highRam
    else if 0xFFFF ≤ n ∧ n ≤ 0xFFFF then some .interruptEnable
    else none := by
  simp only [regionAt, regionTable, List.find?_cons, List.find?_nil, RegionRow.holds, ← Bool.decide_and]
  iterate 9
    split <;> rename_i h <;> simp only [decide_eq_true_eq, decide_eq_false_iff_not] at h <;>
      (first | rw [if_pos h] | rw [if_neg h]) <;> try rfl

/-- Every address lies in one row or one gap, in rising order. -/
theorem regionAt_cases :
    (0x0000 ≤ n ∧ n ≤ 0x00FF ∧ regionAt n = some .bootRom) ∨
    (0x0100 ≤ n ∧ n ≤ 0x7FFF ∧ regionAt n = none) ∨
    (0x8000 ≤ n ∧ n ≤ 0x9FFF ∧ regionAt n = some .vram) ∨
    (0xA000 ≤ n ∧ n ≤ 0xBFFF ∧ regionAt n = none) ∨
    (0xC000 ≤ n ∧ n ≤ 0xDFFF ∧ regionAt n = some .workRam) ∨
    (0xE000 ≤ n ∧ n ≤ 0xFDFF ∧ regionAt n = none) ∨
    (0xFE00 ≤ n ∧ n ≤ 0xFE9F ∧ regionAt n = some .oam) ∨
    (0xFEA0 ≤ n ∧ n ≤ 0xFEFF ∧ regionAt n = none) ∨
    (0xFF00 ≤ n ∧ n ≤ 0xFF00 ∧ regionAt n = some .joypad) ∨
    (0xFF01 ≤ n ∧ n ≤ 0xFF0F ∧ regionAt n = none) ∨
    (0xFF10 ≤ n ∧ n ≤ 0xFF3F ∧ regionAt n = some .audio) ∨
    (0xFF40 ≤ n ∧ n ≤ 0xFF4B ∧ regionAt n = some .graphicsControl) ∨
    (0xFF4C ≤ n ∧ n ≤ 0xFF7F ∧ regionAt n = none) ∨
    (0xFF80 ≤ n ∧ n ≤ 0xFFFE ∧ regionAt n = some .highRam) ∨
    (0xFFFF ≤ n ∧ n ≤ 0xFFFF ∧ regionAt n = some .interruptEnable) ∨
    (0x10000 ≤ n ∧ regionAt n = none) := by
  have h : n ≤ 0x00FF ∨ (0x0100 ≤ n ∧ n ≤ 0x7FFF) ∨ (0x8000 ≤ n ∧ n ≤ 0x9FFF) ∨ (0xA000 ≤ n ∧ n ≤ 0xBFFF) ∨
      (0xC000 ≤ n ∧ n ≤ 0xDFFF) ∨ (0xE000 ≤ n ∧ n ≤ 0xFDFF) ∨ (0xFE00 ≤ n ∧ n ≤ 0xFE9F) ∨ (0xFEA0 ≤ n ∧ n ≤ 0xFEFF) ∨
      (0xFF00 ≤ n ∧ n ≤ 0xFF00) ∨ (0xFF01 ≤ n ∧ n ≤ 0xFF0F) ∨ (0xFF10 ≤ n ∧ n ≤ 0xFF3F) ∨ (0xFF40 ≤ n ∧ n ≤ 0xFF4B) ∨
      (0xFF4C ≤ n ∧ n ≤ 0xFF7F) ∨ (0xFF80 ≤ n ∧ n ≤ 0xFFFE) ∨ (0xFFFF ≤ n ∧ n ≤ 0xFFFF) ∨ 0x10000 ≤ n := by omega
  rw [regionAt_eq]
  rcases h with h | h | h | h | h | h | h | h | h | h | h | h | h | h | h | h <;>
    simp (disch := omega) only [if_pos, if_neg, reduceCtorEq, and_false, false_or, or_false, and_true] <;> omega

/-- Storage and device addresses are mapped. -/
theorem isStorage_iff : isStorage n = true ↔ ∃ r, regionAt n = some r ∧ r.isDevice = false := by
  unfold isStorage
  cases regionAt n <;> simp

end Sys2Proof.Machine
end

