-- ==== Sys2Proof/Laws/PerInstr.lean ====
section
/-! SUPPORT. Laws stated of every instruction as syntax, one lemma per constructor. `EncodeShape`: an instruction's encoding is one to
three bytes, starts with the prefix byte exactly when it is of the prefixed table, and the byte that selects the family is
one a family takes (30_encoding.md R100, R104). -/
namespace Sys2Proof.Laws.EncodeShape

/-- The shape of an instruction's encoding: one to three bytes, an optional prefix, an opcode with a family, its immediates. -/
def Statement (i : Instr) : Prop :=
  ∃ (f : Family) (opcode : Byte) (imm : List Byte),
    ((familyOf false opcode = some f ∧ opcode ≠ 0xCB ∧ encode i = opcode :: imm) ∨
      (familyOf true opcode = some f ∧ encode i = 0xCB :: opcode :: imm)) ∧
    imm.length = f.immBytes ∧ i.length ≤ 3

theorem ldBcN16 (n : Word) : Statement (.ldBcN16 n) := ⟨_, _, _, .inl ⟨rfl, by decide, rfl⟩, rfl, Nat.le_of_ble_eq_true rfl⟩
theorem ldBcMemFromA : Statement (.ldBcMemFromA) := ⟨_, _, _, .inl ⟨rfl, by decide, rfl⟩, rfl, Nat.le_of_ble_eq_true rfl⟩
theorem incBc : Statement (.incBc) := ⟨_, _, _, .inl ⟨rfl, by decide, rfl⟩, rfl, Nat.le_of_ble_eq_true rfl⟩
theorem incB : Statement (.incB) := ⟨_, _, _, .inl ⟨rfl, by decide, rfl⟩, rfl, Nat.le_of_ble_eq_true rfl⟩
theorem ldBN8 (n : Byte) : Statement (.ldBN8 n) := ⟨_, _, _, .inl ⟨rfl, by decide, rfl⟩, rfl, Nat.le_of_ble_eq_true rfl⟩
theorem ldAFromBcMem : Statement (.ldAFromBcMem) := ⟨_, _, _, .inl ⟨rfl, by decide, rfl⟩, rfl, Nat.le_of_ble_eq_true rfl⟩
theorem incC : Statement (.incC) := ⟨_, _, _, .inl ⟨rfl, by decide, rfl⟩, rfl, Nat.le_of_ble_eq_true rfl⟩
theorem ldCN8 (n : Byte) : Statement (.ldCN8 n) := ⟨_, _, _, .inl ⟨rfl, by decide, rfl⟩, rfl, Nat.le_of_ble_eq_true rfl⟩
theorem ldDeN16 (n : Word) : Statement (.ldDeN16 n) := ⟨_, _, _, .inl ⟨rfl, by decide, rfl⟩, rfl, Nat.le_of_ble_eq_true rfl⟩
theorem ldDeMemFromA : Statement (.ldDeMemFromA) := ⟨_, _, _, .inl ⟨rfl, by decide, rfl⟩, rfl, Nat.le_of_ble_eq_true rfl⟩
theorem incDe : Statement (.incDe) := ⟨_, _, _, .inl ⟨rfl, by decide, rfl⟩, rfl, Nat.le_of_ble_eq_true rfl⟩
theorem incD : Statement (.incD) := ⟨_, _, _, .inl ⟨rfl, by decide, rfl⟩, rfl, Nat.le_of_ble_eq_true rfl⟩
theorem ldDN8 (n : Byte) : Statement (.ldDN8 n) := ⟨_, _, _, .inl ⟨rfl, by decide, rfl⟩, rfl, Nat.le_of_ble_eq_true rfl⟩
theorem ldAFromDeMem : Statement (.ldAFromDeMem) := ⟨_, _, _, .inl ⟨rfl, by decide, rfl⟩, rfl, Nat.le_of_ble_eq_true rfl⟩
theorem incE : Statement (.incE) := ⟨_, _, _, .inl ⟨rfl, by decide, rfl⟩, rfl, Nat.le_of_ble_eq_true rfl⟩
theorem ldEN8 (n : Byte) : Statement (.ldEN8 n) := ⟨_, _, _, .inl ⟨rfl, by decide, rfl⟩, rfl, Nat.le_of_ble_eq_true rfl⟩
theorem jrNz (e : Byte) : Statement (.jrNz e) := ⟨_, _, _, .inl ⟨rfl, by decide, rfl⟩, rfl, Nat.le_of_ble_eq_true rfl⟩
theorem ldHlN16 (n : Word) : Statement (.ldHlN16 n) := ⟨_, _, _, .inl ⟨rfl, by decide, rfl⟩, rfl, Nat.le_of_ble_eq_true rfl⟩
theorem ldHlIncFromA : Statement (.ldHlIncFromA) := ⟨_, _, _, .inl ⟨rfl, by decide, rfl⟩, rfl, Nat.le_of_ble_eq_true rfl⟩
theorem incHl : Statement (.incHl) := ⟨_, _, _, .inl ⟨rfl, by decide, rfl⟩, rfl, Nat.le_of_ble_eq_true rfl⟩
theorem incH : Statement (.incH) := ⟨_, _, _, .inl ⟨rfl, by decide, rfl⟩, rfl, Nat.le_of_ble_eq_true rfl⟩
theorem ldHN8 (n : Byte) : Statement (.ldHN8 n) := ⟨_, _, _, .inl ⟨rfl, by decide, rfl⟩, rfl, Nat.le_of_ble_eq_true rfl⟩
theorem jrZ (e : Byte) : Statement (.jrZ e) := ⟨_, _, _, .inl ⟨rfl, by decide, rfl⟩, rfl, Nat.le_of_ble_eq_true rfl⟩
theorem ldAFromHlInc : Statement (.ldAFromHlInc) := ⟨_, _, _, .inl ⟨rfl, by decide, rfl⟩, rfl, Nat.le_of_ble_eq_true rfl⟩
theorem incL : Statement (.incL) := ⟨_, _, _, .inl ⟨rfl, by decide, rfl⟩, rfl, Nat.le_of_ble_eq_true rfl⟩
theorem ldLN8 (n : Byte) : Statement (.ldLN8 n) := ⟨_, _, _, .inl ⟨rfl, by decide, rfl⟩, rfl, Nat.le_of_ble_eq_true rfl⟩
theorem jrNc (e : Byte) : Statement (.jrNc e) := ⟨_, _, _, .inl ⟨rfl, by decide, rfl⟩, rfl, Nat.le_of_ble_eq_true rfl⟩
theorem ldSpN16 (n : Word) : Statement (.ldSpN16 n) := ⟨_, _, _, .inl ⟨rfl, by decide, rfl⟩, rfl, Nat.le_of_ble_eq_true rfl⟩
theorem ldHlDecFromA : Statement (.ldHlDecFromA) := ⟨_, _, _, .inl ⟨rfl, by decide, rfl⟩, rfl, Nat.le_of_ble_eq_true rfl⟩
theorem incSp : Statement (.incSp) := ⟨_, _, _, .inl ⟨rfl, by decide, rfl⟩, rfl, Nat.le_of_ble_eq_true rfl⟩
theorem incHlMem : Statement (.incHlMem) := ⟨_, _, _, .inl ⟨rfl, by decide, rfl⟩, rfl, Nat.le_of_ble_eq_true rfl⟩
theorem ldHlMemN8 (n : Byte) : Statement (.ldHlMemN8 n) := ⟨_, _, _, .inl ⟨rfl, by decide, rfl⟩, rfl, Nat.le_of_ble_eq_true rfl⟩
theorem jrC (e : Byte) : Statement (.jrC e) := ⟨_, _, _, .inl ⟨rfl, by decide, rfl⟩, rfl, Nat.le_of_ble_eq_true rfl⟩
theorem ldAFromHlDec : Statement (.ldAFromHlDec) := ⟨_, _, _, .inl ⟨rfl, by decide, rfl⟩, rfl, Nat.le_of_ble_eq_true rfl⟩
theorem incA : Statement (.incA) := ⟨_, _, _, .inl ⟨rfl, by decide, rfl⟩, rfl, Nat.le_of_ble_eq_true rfl⟩
theorem ldAN8 (n : Byte) : Statement (.ldAN8 n) := ⟨_, _, _, .inl ⟨rfl, by decide, rfl⟩, rfl, Nat.le_of_ble_eq_true rfl⟩
theorem ldBFromB : Statement (.ldBFromB) := ⟨_, _, _, .inl ⟨rfl, by decide, rfl⟩, rfl, Nat.le_of_ble_eq_true rfl⟩
theorem ldBFromC : Statement (.ldBFromC) := ⟨_, _, _, .inl ⟨rfl, by decide, rfl⟩, rfl, Nat.le_of_ble_eq_true rfl⟩
theorem ldBFromD : Statement (.ldBFromD) := ⟨_, _, _, .inl ⟨rfl, by decide, rfl⟩, rfl, Nat.le_of_ble_eq_true rfl⟩
theorem ldBFromE : Statement (.ldBFromE) := ⟨_, _, _, .inl ⟨rfl, by decide, rfl⟩, rfl, Nat.le_of_ble_eq_true rfl⟩
theorem ldBFromH : Statement (.ldBFromH) := ⟨_, _, _, .inl ⟨rfl, by decide, rfl⟩, rfl, Nat.le_of_ble_eq_true rfl⟩
theorem ldBFromL : Statement (.ldBFromL) := ⟨_, _, _, .inl ⟨rfl, by decide, rfl⟩, rfl, Nat.le_of_ble_eq_true rfl⟩
theorem ldBFromHlMem : Statement (.ldBFromHlMem) := ⟨_, _, _, .inl ⟨rfl, by decide, rfl⟩, rfl, Nat.le_of_ble_eq_true rfl⟩
theorem ldBFromA : Statement (.ldBFromA) := ⟨_, _, _, .inl ⟨rfl, by decide, rfl⟩, rfl, Nat.le_of_ble_eq_true rfl⟩
theorem ldCFromB : Statement (.ldCFromB) := ⟨_, _, _, .inl ⟨rfl, by decide, rfl⟩, rfl, Nat.le_of_ble_eq_true rfl⟩
theorem ldCFromC : Statement (.ldCFromC) := ⟨_, _, _, .inl ⟨rfl, by decide, rfl⟩, rfl, Nat.le_of_ble_eq_true rfl⟩
theorem ldCFromD : Statement (.ldCFromD) := ⟨_, _, _, .inl ⟨rfl, by decide, rfl⟩, rfl, Nat.le_of_ble_eq_true rfl⟩
theorem ldCFromE : Statement (.ldCFromE) := ⟨_, _, _, .inl ⟨rfl, by decide, rfl⟩, rfl, Nat.le_of_ble_eq_true rfl⟩
theorem ldCFromH : Statement (.ldCFromH) := ⟨_, _, _, .inl ⟨rfl, by decide, rfl⟩, rfl, Nat.le_of_ble_eq_true rfl⟩
theorem ldCFromL : Statement (.ldCFromL) := ⟨_, _, _, .inl ⟨rfl, by decide, rfl⟩, rfl, Nat.le_of_ble_eq_true rfl⟩
theorem ldCFromHlMem : Statement (.ldCFromHlMem) := ⟨_, _, _, .inl ⟨rfl, by decide, rfl⟩, rfl, Nat.le_of_ble_eq_true rfl⟩
theorem ldCFromA : Statement (.ldCFromA) := ⟨_, _, _, .inl ⟨rfl, by decide, rfl⟩, rfl, Nat.le_of_ble_eq_true rfl⟩
theorem ldDFromB : Statement (.ldDFromB) := ⟨_, _, _, .inl ⟨rfl, by decide, rfl⟩, rfl, Nat.le_of_ble_eq_true rfl⟩
theorem ldDFromC : Statement (.ldDFromC) := ⟨_, _, _, .inl ⟨rfl, by decide, rfl⟩, rfl, Nat.le_of_ble_eq_true rfl⟩
theorem ldDFromD : Statement (.ldDFromD) := ⟨_, _, _, .inl ⟨rfl, by decide, rfl⟩, rfl, Nat.le_of_ble_eq_true rfl⟩
theorem ldDFromE : Statement (.ldDFromE) := ⟨_, _, _, .inl ⟨rfl, by decide, rfl⟩, rfl, Nat.le_of_ble_eq_true rfl⟩
theorem ldDFromH : Statement (.ldDFromH) := ⟨_, _, _, .inl ⟨rfl, by decide, rfl⟩, rfl, Nat.le_of_ble_eq_true rfl⟩
theorem ldDFromL : Statement (.ldDFromL) := ⟨_, _, _, .inl ⟨rfl, by decide, rfl⟩, rfl, Nat.le_of_ble_eq_true rfl⟩
theorem ldDFromHlMem : Statement (.ldDFromHlMem) := ⟨_, _, _, .inl ⟨rfl, by decide, rfl⟩, rfl, Nat.le_of_ble_eq_true rfl⟩
theorem ldDFromA : Statement (.ldDFromA) := ⟨_, _, _, .inl ⟨rfl, by decide, rfl⟩, rfl, Nat.le_of_ble_eq_true rfl⟩
theorem ldEFromB : Statement (.ldEFromB) := ⟨_, _, _, .inl ⟨rfl, by decide, rfl⟩, rfl, Nat.le_of_ble_eq_true rfl⟩
theorem ldEFromC : Statement (.ldEFromC) := ⟨_, _, _, .inl ⟨rfl, by decide, rfl⟩, rfl, Nat.le_of_ble_eq_true rfl⟩
theorem ldEFromD : Statement (.ldEFromD) := ⟨_, _, _, .inl ⟨rfl, by decide, rfl⟩, rfl, Nat.le_of_ble_eq_true rfl⟩
theorem ldEFromE : Statement (.ldEFromE) := ⟨_, _, _, .inl ⟨rfl, by decide, rfl⟩, rfl, Nat.le_of_ble_eq_true rfl⟩
theorem ldEFromH : Statement (.ldEFromH) := ⟨_, _, _, .inl ⟨rfl, by decide, rfl⟩, rfl, Nat.le_of_ble_eq_true rfl⟩
theorem ldEFromL : Statement (.ldEFromL) := ⟨_, _, _, .inl ⟨rfl, by decide, rfl⟩, rfl, Nat.le_of_ble_eq_true rfl⟩
theorem ldEFromHlMem : Statement (.ldEFromHlMem) := ⟨_, _, _, .inl ⟨rfl, by decide, rfl⟩, rfl, Nat.le_of_ble_eq_true rfl⟩
theorem ldEFromA : Statement (.ldEFromA) := ⟨_, _, _, .inl ⟨rfl, by decide, rfl⟩, rfl, Nat.le_of_ble_eq_true rfl⟩
theorem ldHFromB : Statement (.ldHFromB) := ⟨_, _, _, .inl ⟨rfl, by decide, rfl⟩, rfl, Nat.le_of_ble_eq_true rfl⟩
theorem ldHFromC : Statement (.ldHFromC) := ⟨_, _, _, .inl ⟨rfl, by decide, rfl⟩, rfl, Nat.le_of_ble_eq_true rfl⟩
theorem ldHFromD : Statement (.ldHFromD) := ⟨_, _, _, .inl ⟨rfl, by decide, rfl⟩, rfl, Nat.le_of_ble_eq_true rfl⟩
theorem ldHFromE : Statement (.ldHFromE) := ⟨_, _, _, .inl ⟨rfl, by decide, rfl⟩, rfl, Nat.le_of_ble_eq_true rfl⟩
theorem ldHFromH : Statement (.ldHFromH) := ⟨_, _, _, .inl ⟨rfl, by decide, rfl⟩, rfl, Nat.le_of_ble_eq_true rfl⟩
theorem ldHFromL : Statement (.ldHFromL) := ⟨_, _, _, .inl ⟨rfl, by decide, rfl⟩, rfl, Nat.le_of_ble_eq_true rfl⟩
theorem ldHFromHlMem : Statement (.ldHFromHlMem) := ⟨_, _, _, .inl ⟨rfl, by decide, rfl⟩, rfl, Nat.le_of_ble_eq_true rfl⟩
theorem ldHFromA : Statement (.ldHFromA) := ⟨_, _, _, .inl ⟨rfl, by decide, rfl⟩, rfl, Nat.le_of_ble_eq_true rfl⟩
theorem ldLFromB : Statement (.ldLFromB) := ⟨_, _, _, .inl ⟨rfl, by decide, rfl⟩, rfl, Nat.le_of_ble_eq_true rfl⟩
theorem ldLFromC : Statement (.ldLFromC) := ⟨_, _, _, .inl ⟨rfl, by decide, rfl⟩, rfl, Nat.le_of_ble_eq_true rfl⟩
theorem ldLFromD : Statement (.ldLFromD) := ⟨_, _, _, .inl ⟨rfl, by decide, rfl⟩, rfl, Nat.le_of_ble_eq_true rfl⟩
theorem ldLFromE : Statement (.ldLFromE) := ⟨_, _, _, .inl ⟨rfl, by decide, rfl⟩, rfl, Nat.le_of_ble_eq_true rfl⟩
theorem ldLFromH : Statement (.ldLFromH) := ⟨_, _, _, .inl ⟨rfl, by decide, rfl⟩, rfl, Nat.le_of_ble_eq_true rfl⟩
theorem ldLFromL : Statement (.ldLFromL) := ⟨_, _, _, .inl ⟨rfl, by decide, rfl⟩, rfl, Nat.le_of_ble_eq_true rfl⟩
theorem ldLFromHlMem : Statement (.ldLFromHlMem) := ⟨_, _, _, .inl ⟨rfl, by decide, rfl⟩, rfl, Nat.le_of_ble_eq_true rfl⟩
theorem ldLFromA : Statement (.ldLFromA) := ⟨_, _, _, .inl ⟨rfl, by decide, rfl⟩, rfl, Nat.le_of_ble_eq_true rfl⟩
theorem ldHlMemFromB : Statement (.ldHlMemFromB) := ⟨_, _, _, .inl ⟨rfl, by decide, rfl⟩, rfl, Nat.le_of_ble_eq_true rfl⟩
theorem ldHlMemFromC : Statement (.ldHlMemFromC) := ⟨_, _, _, .inl ⟨rfl, by decide, rfl⟩, rfl, Nat.le_of_ble_eq_true rfl⟩
theorem ldHlMemFromD : Statement (.ldHlMemFromD) := ⟨_, _, _, .inl ⟨rfl, by decide, rfl⟩, rfl, Nat.le_of_ble_eq_true rfl⟩
theorem ldHlMemFromE : Statement (.ldHlMemFromE) := ⟨_, _, _, .inl ⟨rfl, by decide, rfl⟩, rfl, Nat.le_of_ble_eq_true rfl⟩
theorem ldHlMemFromH : Statement (.ldHlMemFromH) := ⟨_, _, _, .inl ⟨rfl, by decide, rfl⟩, rfl, Nat.le_of_ble_eq_true rfl⟩
theorem ldHlMemFromL : Statement (.ldHlMemFromL) := ⟨_, _, _, .inl ⟨rfl, by decide, rfl⟩, rfl, Nat.le_of_ble_eq_true rfl⟩
theorem ldHlMemFromA : Statement (.ldHlMemFromA) := ⟨_, _, _, .inl ⟨rfl, by decide, rfl⟩, rfl, Nat.le_of_ble_eq_true rfl⟩
theorem ldAFromB : Statement (.ldAFromB) := ⟨_, _, _, .inl ⟨rfl, by decide, rfl⟩, rfl, Nat.le_of_ble_eq_true rfl⟩
theorem ldAFromC : Statement (.ldAFromC) := ⟨_, _, _, .inl ⟨rfl, by decide, rfl⟩, rfl, Nat.le_of_ble_eq_true rfl⟩
theorem ldAFromD : Statement (.ldAFromD) := ⟨_, _, _, .inl ⟨rfl, by decide, rfl⟩, rfl, Nat.le_of_ble_eq_true rfl⟩
theorem ldAFromE : Statement (.ldAFromE) := ⟨_, _, _, .inl ⟨rfl, by decide, rfl⟩, rfl, Nat.le_of_ble_eq_true rfl⟩
theorem ldAFromH : Statement (.ldAFromH) := ⟨_, _, _, .inl ⟨rfl, by decide, rfl⟩, rfl, Nat.le_of_ble_eq_true rfl⟩
theorem ldAFromL : Statement (.ldAFromL) := ⟨_, _, _, .inl ⟨rfl, by decide, rfl⟩, rfl, Nat.le_of_ble_eq_true rfl⟩
theorem ldAFromHlMem : Statement (.ldAFromHlMem) := ⟨_, _, _, .inl ⟨rfl, by decide, rfl⟩, rfl, Nat.le_of_ble_eq_true rfl⟩
theorem ldAFromA : Statement (.ldAFromA) := ⟨_, _, _, .inl ⟨rfl, by decide, rfl⟩, rfl, Nat.le_of_ble_eq_true rfl⟩
theorem xorB : Statement (.xorB) := ⟨_, _, _, .inl ⟨rfl, by decide, rfl⟩, rfl, Nat.le_of_ble_eq_true rfl⟩
theorem xorC : Statement (.xorC) := ⟨_, _, _, .inl ⟨rfl, by decide, rfl⟩, rfl, Nat.le_of_ble_eq_true rfl⟩
theorem xorD : Statement (.xorD) := ⟨_, _, _, .inl ⟨rfl, by decide, rfl⟩, rfl, Nat.le_of_ble_eq_true rfl⟩
theorem xorE : Statement (.xorE) := ⟨_, _, _, .inl ⟨rfl, by decide, rfl⟩, rfl, Nat.le_of_ble_eq_true rfl⟩
theorem xorH : Statement (.xorH) := ⟨_, _, _, .inl ⟨rfl, by decide, rfl⟩, rfl, Nat.le_of_ble_eq_true rfl⟩
theorem xorL : Statement (.xorL) := ⟨_, _, _, .inl ⟨rfl, by decide, rfl⟩, rfl, Nat.le_of_ble_eq_true rfl⟩
theorem xorHlMem : Statement (.xorHlMem) := ⟨_, _, _, .inl ⟨rfl, by decide, rfl⟩, rfl, Nat.le_of_ble_eq_true rfl⟩
theorem xorA : Statement (.xorA) := ⟨_, _, _, .inl ⟨rfl, by decide, rfl⟩, rfl, Nat.le_of_ble_eq_true rfl⟩
theorem pushBc : Statement (.pushBc) := ⟨_, _, _, .inl ⟨rfl, by decide, rfl⟩, rfl, Nat.le_of_ble_eq_true rfl⟩
theorem pushDe : Statement (.pushDe) := ⟨_, _, _, .inl ⟨rfl, by decide, rfl⟩, rfl, Nat.le_of_ble_eq_true rfl⟩
theorem ldhN8FromA (n : Byte) : Statement (.ldhN8FromA n) := ⟨_, _, _, .inl ⟨rfl, by decide, rfl⟩, rfl, Nat.le_of_ble_eq_true rfl⟩
theorem ldhCFromA : Statement (.ldhCFromA) := ⟨_, _, _, .inl ⟨rfl, by decide, rfl⟩, rfl, Nat.le_of_ble_eq_true rfl⟩
theorem pushHl : Statement (.pushHl) := ⟨_, _, _, .inl ⟨rfl, by decide, rfl⟩, rfl, Nat.le_of_ble_eq_true rfl⟩
theorem pushAf : Statement (.pushAf) := ⟨_, _, _, .inl ⟨rfl, by decide, rfl⟩, rfl, Nat.le_of_ble_eq_true rfl⟩
theorem bit0B : Statement (.bit0B) := ⟨_, _, _, .inr ⟨rfl, rfl⟩, rfl, Nat.le_of_ble_eq_true rfl⟩
theorem bit0C : Statement (.bit0C) := ⟨_, _, _, .inr ⟨rfl, rfl⟩, rfl, Nat.le_of_ble_eq_true rfl⟩
theorem bit0D : Statement (.bit0D) := ⟨_, _, _, .inr ⟨rfl, rfl⟩, rfl, Nat.le_of_ble_eq_true rfl⟩
theorem bit0E : Statement (.bit0E) := ⟨_, _, _, .inr ⟨rfl, rfl⟩, rfl, Nat.le_of_ble_eq_true rfl⟩
theorem bit0H : Statement (.bit0H) := ⟨_, _, _, .inr ⟨rfl, rfl⟩, rfl, Nat.le_of_ble_eq_true rfl⟩
theorem bit0L : Statement (.bit0L) := ⟨_, _, _, .inr ⟨rfl, rfl⟩, rfl, Nat.le_of_ble_eq_true rfl⟩
theorem bit0HlMem : Statement (.bit0HlMem) := ⟨_, _, _, .inr ⟨rfl, rfl⟩, rfl, Nat.le_of_ble_eq_true rfl⟩
theorem bit0A : Statement (.bit0A) := ⟨_, _, _, .inr ⟨rfl, rfl⟩, rfl, Nat.le_of_ble_eq_true rfl⟩
theorem bit1B : Statement (.bit1B) := ⟨_, _, _, .inr ⟨rfl, rfl⟩, rfl, Nat.le_of_ble_eq_true rfl⟩
theorem bit1C : Statement (.bit1C) := ⟨_, _, _, .inr ⟨rfl, rfl⟩, rfl, Nat.le_of_ble_eq_true rfl⟩
theorem bit1D : Statement (.bit1D) := ⟨_, _, _, .inr ⟨rfl, rfl⟩, rfl, Nat.le_of_ble_eq_true rfl⟩
theorem bit1E : Statement (.bit1E) := ⟨_, _, _, .inr ⟨rfl, rfl⟩, rfl, Nat.le_of_ble_eq_true rfl⟩
theorem bit1H : Statement (.bit1H) := ⟨_, _, _, .inr ⟨rfl, rfl⟩, rfl, Nat.le_of_ble_eq_true rfl⟩
theorem bit1L : Statement (.bit1L) := ⟨_, _, _, .inr ⟨rfl, rfl⟩, rfl, Nat.le_of_ble_eq_true rfl⟩
theorem bit1HlMem : Statement (.bit1HlMem) := ⟨_, _, _, .inr ⟨rfl, rfl⟩, rfl, Nat.le_of_ble_eq_true rfl⟩
theorem bit1A : Statement (.bit1A) := ⟨_, _, _, .inr ⟨rfl, rfl⟩, rfl, Nat.le_of_ble_eq_true rfl⟩
theorem bit2B : Statement (.bit2B) := ⟨_, _, _, .inr ⟨rfl, rfl⟩, rfl, Nat.le_of_ble_eq_true rfl⟩
theorem bit2C : Statement (.bit2C) := ⟨_, _, _, .inr ⟨rfl, rfl⟩, rfl, Nat.le_of_ble_eq_true rfl⟩
theorem bit2D : Statement (.bit2D) := ⟨_, _, _, .inr ⟨rfl, rfl⟩, rfl, Nat.le_of_ble_eq_true rfl⟩
theorem bit2E : Statement (.bit2E) := ⟨_, _, _, .inr ⟨rfl, rfl⟩, rfl, Nat.le_of_ble_eq_true rfl⟩
theorem bit2H : Statement (.bit2H) := ⟨_, _, _, .inr ⟨rfl, rfl⟩, rfl, Nat.le_of_ble_eq_true rfl⟩
theorem bit2L : Statement (.bit2L) := ⟨_, _, _, .inr ⟨rfl, rfl⟩, rfl, Nat.le_of_ble_eq_true rfl⟩
theorem bit2HlMem : Statement (.bit2HlMem) := ⟨_, _, _, .inr ⟨rfl, rfl⟩, rfl, Nat.le_of_ble_eq_true rfl⟩
theorem bit2A : Statement (.bit2A) := ⟨_, _, _, .inr ⟨rfl, rfl⟩, rfl, Nat.le_of_ble_eq_true rfl⟩
theorem bit3B : Statement (.bit3B) := ⟨_, _, _, .inr ⟨rfl, rfl⟩, rfl, Nat.le_of_ble_eq_true rfl⟩
theorem bit3C : Statement (.bit3C) := ⟨_, _, _, .inr ⟨rfl, rfl⟩, rfl, Nat.le_of_ble_eq_true rfl⟩
theorem bit3D : Statement (.bit3D) := ⟨_, _, _, .inr ⟨rfl, rfl⟩, rfl, Nat.le_of_ble_eq_true rfl⟩
theorem bit3E : Statement (.bit3E) := ⟨_, _, _, .inr ⟨rfl, rfl⟩, rfl, Nat.le_of_ble_eq_true rfl⟩
theorem bit3H : Statement (.bit3H) := ⟨_, _, _, .inr ⟨rfl, rfl⟩, rfl, Nat.le_of_ble_eq_true rfl⟩
theorem bit3L : Statement (.bit3L) := ⟨_, _, _, .inr ⟨rfl, rfl⟩, rfl, Nat.le_of_ble_eq_true rfl⟩
theorem bit3HlMem : Statement (.bit3HlMem) := ⟨_, _, _, .inr ⟨rfl, rfl⟩, rfl, Nat.le_of_ble_eq_true rfl⟩
theorem bit3A : Statement (.bit3A) := ⟨_, _, _, .inr ⟨rfl, rfl⟩, rfl, Nat.le_of_ble_eq_true rfl⟩
theorem bit4B : Statement (.bit4B) := ⟨_, _, _, .inr ⟨rfl, rfl⟩, rfl, Nat.le_of_ble_eq_true rfl⟩
theorem bit4C : Statement (.bit4C) := ⟨_, _, _, .inr ⟨rfl, rfl⟩, rfl, Nat.le_of_ble_eq_true rfl⟩
theorem bit4D : Statement (.bit4D) := ⟨_, _, _, .inr ⟨rfl, rfl⟩, rfl, Nat.le_of_ble_eq_true rfl⟩
theorem bit4E : Statement (.bit4E) := ⟨_, _, _, .inr ⟨rfl, rfl⟩, rfl, Nat.le_of_ble_eq_true rfl⟩
theorem bit4H : Statement (.bit4H) := ⟨_, _, _, .inr ⟨rfl, rfl⟩, rfl, Nat.le_of_ble_eq_true rfl⟩
theorem bit4L : Statement (.bit4L) := ⟨_, _, _, .inr ⟨rfl, rfl⟩, rfl, Nat.le_of_ble_eq_true rfl⟩
theorem bit4HlMem : Statement (.bit4HlMem) := ⟨_, _, _, .inr ⟨rfl, rfl⟩, rfl, Nat.le_of_ble_eq_true rfl⟩
theorem bit4A : Statement (.bit4A) := ⟨_, _, _, .inr ⟨rfl, rfl⟩, rfl, Nat.le_of_ble_eq_true rfl⟩
theorem bit5B : Statement (.bit5B) := ⟨_, _, _, .inr ⟨rfl, rfl⟩, rfl, Nat.le_of_ble_eq_true rfl⟩
theorem bit5C : Statement (.bit5C) := ⟨_, _, _, .inr ⟨rfl, rfl⟩, rfl, Nat.le_of_ble_eq_true rfl⟩
theorem bit5D : Statement (.bit5D) := ⟨_, _, _, .inr ⟨rfl, rfl⟩, rfl, Nat.le_of_ble_eq_true rfl⟩
theorem bit5E : Statement (.bit5E) := ⟨_, _, _, .inr ⟨rfl, rfl⟩, rfl, Nat.le_of_ble_eq_true rfl⟩
theorem bit5H : Statement (.bit5H) := ⟨_, _, _, .inr ⟨rfl, rfl⟩, rfl, Nat.le_of_ble_eq_true rfl⟩
theorem bit5L : Statement (.bit5L) := ⟨_, _, _, .inr ⟨rfl, rfl⟩, rfl, Nat.le_of_ble_eq_true rfl⟩
theorem bit5HlMem : Statement (.bit5HlMem) := ⟨_, _, _, .inr ⟨rfl, rfl⟩, rfl, Nat.le_of_ble_eq_true rfl⟩
theorem bit5A : Statement (.bit5A) := ⟨_, _, _, .inr ⟨rfl, rfl⟩, rfl, Nat.le_of_ble_eq_true rfl⟩
theorem bit6B : Statement (.bit6B) := ⟨_, _, _, .inr ⟨rfl, rfl⟩, rfl, Nat.le_of_ble_eq_true rfl⟩
theorem bit6C : Statement (.bit6C) := ⟨_, _, _, .inr ⟨rfl, rfl⟩, rfl, Nat.le_of_ble_eq_true rfl⟩
theorem bit6D : Statement (.bit6D) := ⟨_, _, _, .inr ⟨rfl, rfl⟩, rfl, Nat.le_of_ble_eq_true rfl⟩
theorem bit6E : Statement (.bit6E) := ⟨_, _, _, .inr ⟨rfl, rfl⟩, rfl, Nat.le_of_ble_eq_true rfl⟩
theorem bit6H : Statement (.bit6H) := ⟨_, _, _, .inr ⟨rfl, rfl⟩, rfl, Nat.le_of_ble_eq_true rfl⟩
theorem bit6L : Statement (.bit6L) := ⟨_, _, _, .inr ⟨rfl, rfl⟩, rfl, Nat.le_of_ble_eq_true rfl⟩
theorem bit6HlMem : Statement (.bit6HlMem) := ⟨_, _, _, .inr ⟨rfl, rfl⟩, rfl, Nat.le_of_ble_eq_true rfl⟩
theorem bit6A : Statement (.bit6A) := ⟨_, _, _, .inr ⟨rfl, rfl⟩, rfl, Nat.le_of_ble_eq_true rfl⟩
theorem bit7B : Statement (.bit7B) := ⟨_, _, _, .inr ⟨rfl, rfl⟩, rfl, Nat.le_of_ble_eq_true rfl⟩
theorem bit7C : Statement (.bit7C) := ⟨_, _, _, .inr ⟨rfl, rfl⟩, rfl, Nat.le_of_ble_eq_true rfl⟩
theorem bit7D : Statement (.bit7D) := ⟨_, _, _, .inr ⟨rfl, rfl⟩, rfl, Nat.le_of_ble_eq_true rfl⟩
theorem bit7E : Statement (.bit7E) := ⟨_, _, _, .inr ⟨rfl, rfl⟩, rfl, Nat.le_of_ble_eq_true rfl⟩
theorem bit7H : Statement (.bit7H) := ⟨_, _, _, .inr ⟨rfl, rfl⟩, rfl, Nat.le_of_ble_eq_true rfl⟩
theorem bit7L : Statement (.bit7L) := ⟨_, _, _, .inr ⟨rfl, rfl⟩, rfl, Nat.le_of_ble_eq_true rfl⟩
theorem bit7HlMem : Statement (.bit7HlMem) := ⟨_, _, _, .inr ⟨rfl, rfl⟩, rfl, Nat.le_of_ble_eq_true rfl⟩
theorem bit7A : Statement (.bit7A) := ⟨_, _, _, .inr ⟨rfl, rfl⟩, rfl, Nat.le_of_ble_eq_true rfl⟩

end Sys2Proof.Laws.EncodeShape
end

