-- ==== Sys2Proof/Laws/Results.lean ====
section
/-! SUPPORT. What the shared data accesses leave, in the terms claims are stated in: a write that completes, a write or a read that
latches a fault, and the small operations they follow. -/
namespace Sys2Proof.Machine

variable (s : State)

/-! ## Frames of the small operations -/

theorem leaves_refl : Leaves s s [] s.sp := ⟨fun _ _ => rfl, rfl, rfl, rfl, rfl, rfl⟩

theorem leaves_advance (n : Word) : Leaves s (s.advance n) [] s.sp := ⟨fun _ _ => by simp, rfl, rfl, rfl, rfl, rfl⟩

/-- HL replaced, as the `[HL+]` and `[HL-]` forms do (R146). -/
theorem leaves_hl (v n : Word) : Leaves s (State.advance { s with hl := v } n) [.h, .l] s.sp :=
  ⟨fun k hk => by cases k <;> first | rfl | simp at hk, rfl, rfl, rfl, rfl, rfl⟩

/-! ## A one-byte write -/

/-- A write to an address that takes it: the byte is stored, one M-cycle passes, one event is appended, and the rest is as the state
before it. -/
theorem writeByte_completes {u : State} (a : Word) (v : Byte) {but : List Reg8} {sp pc : Word} {cycles : Nat}
    {events : List BusEvent} (hw : Writable a) (hm : u.mem = s.mem) (hl : Leaves s u but sp) (hpc : u.pc = pc)
    (hf : u.flt = s.flt) (hc : u.clock = s.clock + cycles) (hh : u.history = events ++ s.history) :
    (∀ x, (writeByte a v u).mem.read x = storedAt s.mem a v x) ∧ Leaves s (writeByte a v u) but sp ∧
      Completes s (writeByte a v u) pc (cycles + 1) (.write a v :: events) := by
  rw [writeByte_ok _ _ _ hw]
  refine ⟨fun x => by simp [State.putByte_read, storedAt, hm], ?_, ?_⟩
  · obtain ⟨h1, h2, h3, h4, h5, h6⟩ := hl
    exact ⟨fun k hk => by rw [← h1 k hk]; simp, by simpa, by simpa, by simpa, by simpa, by simpa⟩
  · exact ⟨by simpa, rfl, by simpa, by simp [hc, Nat.add_assoc], by simp [hh]⟩

/-- A write that meets an address that takes none: what its M-cycle leaves. -/
theorem raised_write_latches {u : State} (a : Word) (v : Byte) (r : FaultRecord) {but : List Reg8} {sp pc : Word}
    (hm : u.mem = s.mem) (hl : Leaves s u but sp) (hpc : u.pc = pc) (hc : u.clock = s.clock)
    (hh : u.history = s.history) :
    Leaves s ((u.setStage (.write (.write8 a v))).tick.raise r) but sp ∧
      Latches s ((u.setStage (.write (.write8 a v))).tick.raise r) r (.write (.write8 a v)) pc := by
  obtain ⟨h1, h2, h3, h4, h5, h6⟩ := hl
  exact ⟨⟨fun k hk => by rw [← h1 k hk]; rfl, by simpa, by simpa, by simpa, by simpa, by simpa⟩,
    ⟨rfl, rfl, by simpa, by simp [hc], by simp [hh], fun x => by simp [hm]⟩⟩

/-! ## A one-byte read -/

/-- A read of an unmapped address: what its M-cycle leaves. -/
theorem readByteThen_latches {u : State} (a : Word) (k : Byte → State → State) {but : List Reg8} {sp : Word}
    (h : regionOf a = none) (hm : u.mem = s.mem) (hl : Leaves s u but sp) (hpc : u.pc = s.pc) (hc : u.clock = s.clock)
    (hh : u.history = s.history) :
    Leaves s (readByteThen a k u) but sp ∧
      Latches s (readByteThen a k u) (.unmappedAddress a false s.pc) (.read (.read8 a)) s.pc := by
  rw [readByteThen_unmapped _ _ _ h]
  obtain ⟨h1, h2, h3, h4, h5, h6⟩ := hl
  exact ⟨⟨fun k hk => by rw [← h1 k hk]; rfl, by simpa, by simpa, by simpa, by simpa, by simpa⟩,
    ⟨by simp [hpc], rfl, by simpa, by simp [hc], by simp [hh], fun x => by simp [hm]⟩⟩

/-! ## Flags -/

/-- Bit `n` of a byte is its quotient by 2 to the n, modulo 2 (R240). -/
theorem getLsbD_bitNum (n : BitNum) (v : Byte) : (!v.getLsbD n.toNat) = true ↔ v.toNat / 2 ^ n.toNat % 2 = 0 := by
  revert v
  cases n <;> decide +kernel

/-- The two tests of an 8-bit increment (R213) on numbers. -/
theorem inc8_tests (v : Byte) :
    ((v + 1 == 0) = true ↔ v.toNat = 0xFF) ∧ ((v &&& 0x0F == 0x0F) = true ↔ v.toNat % 16 = 0xF) := by
  revert v
  decide +kernel

end Sys2Proof.Machine
end

