-- ==== Sys2Proof/Laws/Resume.lean ====
section
/-! SUPPORT. From M-cycles to instructions: what resuming an instruction (`finishInstr`) does at each stage, as the data accesses the
meanings are written with, and with them that the M-cycle machine decodes and executes what the meaning of the fetched
instruction says, family by family. -/
namespace Sys2Proof.Machine

/-- An outcome's next state followed by `k`; a stop is kept. -/
def bindNext (o : Host.Outcome State Fault Refusal) (k : State → Host.Outcome State Fault Refusal) :
    Host.Outcome State Fault Refusal :=
  match o with
  | .next s => k s
  | .fault r => .fault r
  | .refused r => .refused r

/-! ## One M-cycle at a time -/

theorem finishInstr_of_latched (n) (s : State) (h : s.flt.isSome) : finishInstr n s = .next s := by
  cases n with
  | zero => rfl
  | succ n => simp [finishInstr, State.atBoundary, h]

theorem finishInstr_of_fetch (n) (s : State) (h : s.stage = .fetch) : finishInstr n s = .next s := by
  cases n with
  | zero => rfl
  | succ n => simp [finishInstr, State.atBoundary, h]

theorem finishInstr_succ (n) (s : State) (h : s.stage ≠ .fetch) (hf : s.flt = none) :
    finishInstr (n + 1) s = bindNext (cycle s) (finishInstr n) := by
  have hb : s.atBoundary = false := by simp [State.atBoundary, h, hf]
  simp only [finishInstr, hb, bindNext]; cases cycle s <;> rfl

theorem cycle_read (s : State) (src) (hf : s.flt = none) (h : s.stage = .read src) :
    cycle s = readStageCycle src s.tick := by
  simp [cycle, hf, h]

theorem cycle_write (s : State) (d) (hf : s.flt = none) (h : s.stage = .write d) :
    cycle s = writeStageCycle d s.tick := by
  simp [cycle, hf, h]

theorem cycle_wait (s : State) (d) (hf : s.flt = none) (h : s.stage = .wait d) :
    cycle s = .next (s.tick.setStage (.write d)) := by
  simp [cycle, hf, h]

/-! ## What remains of an instruction, stage by stage -/

/-- A one-byte write that remains is the shared operation `writeByte`. -/
theorem finishInstr_write8 (n) (s : State) (a v) (hf : s.flt = none) :
   finishInstr (n+1) (s.setStage (.write (.write8 a v))) = .next (writeByte a v s) := by
  rw [finishInstr_succ _ _ (by simp) (by simpa using hf), cycle_write _ _ (by simpa using hf) rfl]
  rcases busWrite_cases (s.setStage (.write (.write8 a v))).tick a v with ⟨h, e⟩|⟨h,e⟩|⟨h,e⟩
  · rw [writeByte_ok _ _ _ h]; simp only [writeStageCycle, dstStep, e, bindNext]; rw [finishInstr_of_fetch]; rfl; rfl
  · rw [writeByte_unmapped _ _ _ h]; simp only [writeStageCycle, dstStep, e, bindNext]; rw [finishInstr_of_latched]; rfl; rfl
  · rw [writeByte_bootRom _ _ _ h]; simp only [writeStageCycle, dstStep, e, bindNext]; rw [finishInstr_of_latched]; rfl; rfl

/-- The high byte of a two-byte write. -/
theorem finishInstr_write16Hi (n) (s : State) (a v) (hf : s.flt = none) :
   finishInstr (n+1) (s.setStage (.write (.write16Hi a v))) = .next (writeHighByte a v s) := by
  rw [finishInstr_succ _ _ (by simp) (by simpa using hf), cycle_write _ _ (by simpa using hf) rfl]
  rcases busWrite_cases (s.setStage (.write (.write16Hi a v))).tick a v with ⟨h, e⟩|⟨h,e⟩|⟨h,e⟩
  · rw [writeHighByte_ok _ _ _ h]; simp only [writeStageCycle, dstStep, e, bindNext]; rw [finishInstr_of_fetch]; rfl; rfl
  · rw [writeHighByte_unmapped _ _ _ h]; simp only [writeStageCycle, dstStep, e, bindNext]; rw [finishInstr_of_latched]; rfl; rfl
  · rw [writeHighByte_bootRom _ _ _ h]; simp only [writeStageCycle, dstStep, e, bindNext]; rw [finishInstr_of_latched]; rfl; rfl

/-- A two-byte write that remains is `writeWord`. -/
theorem finishInstr_write16 (n) (s : State) (a v) (hf : s.flt = none) :
   finishInstr (n+2) (s.setStage (.write (.write16 a v))) = .next (writeWord a v s) := by
  rw [finishInstr_succ _ _ (by simp) (by simpa using hf), cycle_write _ _ (by simpa using hf) rfl]
  rcases busWrite_cases (s.setStage (.write (.write16 a v))).tick a (loByte v) with ⟨h, e⟩|⟨h,e⟩|⟨h,e⟩
  · rw [writeWord_ok _ _ _ h]; simp only [writeStageCycle, dstStep, e, bindNext, Dst.isDone]
    exact finishInstr_write16Hi n _ _ _ (by simpa using hf)
  · rw [writeWord_unmapped _ _ _ h]; simp only [writeStageCycle, dstStep, e, bindNext]; rw [finishInstr_of_latched]; rfl; rfl
  · rw [writeWord_bootRom _ _ _ h]; simp only [writeStageCycle, dstStep, e, bindNext]; rw [finishInstr_of_latched]; rfl; rfl

/-- The idle M-cycle of `INC r16` and taken `JR` (40_stage_machine.md R148). -/
theorem finishInstr_idle (n) (s : State) (hf : s.flt = none) :
   finishInstr (n+1) (s.setStage (.write .none)) = .next (s.tick.setStage .fetch) := by
  rw [finishInstr_succ _ _ (by simp) (by simpa using hf), cycle_write _ _ (by simpa using hf) rfl]
  simp only [writeStageCycle, dstStep, bindNext, Dst.isDone]; rw [finishInstr_of_fetch]; rfl; rfl

/-- The idle M-cycle of `PUSH` (R148) and its write. -/
theorem finishInstr_wait (n) (s : State) (a v) (hf : s.flt = none) :
   finishInstr (n+3) (s.setStage (.wait (.write16 a v))) = .next (writeWord a v s.tick) := by
  rw [finishInstr_succ _ _ (by simp) (by simpa using hf), cycle_wait _ _ (by simpa using hf) rfl]
  exact finishInstr_write16 n s.tick a v hf

/-- A one-byte read that remains is `readByteThen`, when the family executes what the continuation says. -/
theorem finishInstr_read8 (n) (s : State) (a) (k : Byte → State → State) (f) (hf : s.flt = none)
   (hfam : familyOf s.pfx s.opc = some f)
   (hk : ∀ v s', s'.flt = none → ∃ t, executeFamily f (.byte v) s' = some t ∧ finishInstr n t = .next (k v s')) :
   finishInstr (n+1) (s.setStage (.read (.read8 a))) = .next (readByteThen a k s) := by
  rw [finishInstr_succ _ _ (by simp) (by simpa using hf), cycle_read _ _ (by simpa using hf) rfl]
  rcases busRead_cases (s.setStage (.read (.read8 a))).tick a with ⟨h, e⟩|⟨h,e⟩
  · rw [readByteThen_ok _ _ _ h]; simp only [readStageCycle, srcStep, e, bindNext, Src.value?, executePhase]
    obtain ⟨t, h1, h2⟩ := hk (s.busByte a) (((s.setStage (.read (.read8 a))).tick).log (.read a (s.busByte a))) (by simpa using hf)
    simp only [State.tick_busByte, State.setStage_busByte, State.log_pfx, State.log_opc, State.tick_pfx, State.tick_opc,
      State.setStage_pfx, State.setStage_opc, hfam, h1]
    exact h2
  · rw [readByteThen_unmapped _ _ _ h]; simp only [readStageCycle, srcStep, e, bindNext]; rw [finishInstr_of_latched]; rfl; rfl

/-- The read of the one immediate byte of a family is its fetch and its meaning. -/
theorem finishInstr_immediate (n) (s : State) (f) (hf : s.flt = none)
   (hfam : familyOf s.pfx s.opc = some f)
   (himm : f.immBytes = 1)
   (hk : ∀ v s', s'.flt = none → ∃ t i, executeFamily f (.byte v) s' = some t ∧ instrOf f v 0 = some i ∧
      finishInstr n t = exec i (s'.setStage .fetch)) :
   finishInstr (n+1) (s.setStage (.read (.read8 (s.pc+1)))) =
      match fetchImmediate f s with
      | .raised s1 => .next s1
      | .ok i s1 => exec i s1 := by
  rw [finishInstr_succ _ _ (by simp) (by simpa using hf), cycle_read _ _ (by simpa using hf) rfl]
  unfold fetchImmediate
  rw [himm]
  simp only [readCycle]
  rcases busRead_cases (s.setStage (.read (.read8 (s.pc+1)))).tick (s.pc+1) with ⟨h, e⟩|⟨h,e⟩
  · rw [e]; simp only [readStageCycle, srcStep, e, bindNext, Src.value?, executePhase]
    obtain ⟨t, i, h1, hi, h2⟩ := hk (s.busByte (s.pc+1)) (((s.setStage (.read (.read8 (s.pc+1)))).tick).log (.read (s.pc+1) (s.busByte (s.pc+1)))) (by simpa using hf)
    simp only [State.tick_busByte, State.setStage_busByte, State.log_pfx, State.log_opc, State.tick_pfx, State.tick_opc,
      State.setStage_pfx, State.setStage_opc, hfam, h1, fetched, hi]
    exact h2
  · rw [e]; simp only [readStageCycle, srcStep, e, bindNext]; rw [finishInstr_of_latched]; rfl

/-- The immediates of a family fetched, and the meaning of what they make. -/
def fetchedMeaning (f : Family) (s : State) : Host.Outcome State Fault Refusal :=
  match fetchImmediate f s with
  | .raised s1 => .next s1
  | .ok i s1 => exec i s1

theorem readByteThen_stage (a k) (s : State) (st) : readByteThen a k (s.setStage st) = readByteThen a k s := rfl

theorem writeByte_stage (a k) (s : State) (st) : writeByte a k (s.setStage st) = writeByte a k s := rfl

/-- No byte is the load of [HL] from [HL] (30_encoding.md R116). -/
theorem familyOf_ne_mem_mem (p b) : familyOf p b ≠ some (.ldSlotSlot .mem .mem) := by
  revert p b; decide +kernel

/-- Decoding in the opcode byte's M-cycle and finishing is fetching the immediates and running the meaning. -/
theorem decodePhase_then_finish (n) (s : State) (hf : s.flt = none) (f) (hfam : familyOf s.pfx s.opc = some f) :
    bindNext (decodePhase s) (finishInstr (n+3)) = fetchedMeaning f s := by
  have hnm : f ≠ .ldSlotSlot .mem .mem := by rintro rfl; exact familyOf_ne_mem_mem _ _ hfam
  unfold decodePhase
  simp only [hfam]
  cases f with
  | ldPairImm p =>
    simp only [sourceOf, Src.value?, bindNext, fetchedMeaning, fetchImmediate, Family.immBytes, readCycle]
    rw [finishInstr_succ _ _ (by simp) (by simpa using hf), cycle_read _ _ (by simpa using hf) rfl]
    rcases busRead_cases (s.setStage (.read (.read16 (s.pc+1)))).tick (s.pc+1) with ⟨h, e⟩|⟨h,e⟩
    · rw [e]; simp only [readStageCycle, srcStep, e, bindNext, Src.value?]
      rw [finishInstr_succ _ _ (by simp) (by simpa using hf), cycle_read _ _ (by simpa using hf) rfl]
      simp only [readStageCycle, srcStep]
      generalize hX : (((s.setStage (.read (.read16 (s.pc+1)))).tick.log (.read (s.pc+1) ((s.setStage (.read (.read16 (s.pc+1)))).tick.busByte (s.pc+1)))).setStage
        (.read (.read16Hi (s.pc+1+1) ((s.setStage (.read (.read16 (s.pc+1)))).tick.busByte (s.pc+1))))).tick = X
      have hXf : X.flt = none := by rw [← hX]; simpa using hf
      have hXm : familyOf X.pfx X.opc = some (.ldPairImm p) := by rw [← hX]; simpa using hfam
      rcases busRead_cases X (s.pc+1+1) with ⟨h, e⟩|⟨h,e⟩
      · rw [e]; simp only [Src.value?, executePhase, State.log_pfx, State.log_opc, hXm, executeFamily, bindNext, fetched, instrOf]
        rw [finishInstr_of_fetch _ _ (by simp), exec_ldPairImm]
        cases p <;> rfl
      · rw [e]; simp only [bindNext]; rw [finishInstr_of_latched]; rfl
    · rw [e]; simp only [readStageCycle, srcStep, e, bindNext]; rw [finishInstr_of_latched]; rfl
  | ldMemA p =>
    simp only [sourceOf, Src.value?, executePhase, hfam, executeFamily, bindNext, fetchedMeaning, fetchImmediate,
      Family.immBytes, fetched, instrOf]
    rw [finishInstr_write8 _ _ _ _ (by simpa using hf), exec_storeA]
    cases p <;> rfl
  | ldAMem p =>
    simp only [sourceOf, Src.value?, bindNext, fetchedMeaning, fetchImmediate, Family.immBytes, fetched, instrOf]
    rw [finishInstr_read8 (n+2) _ _ (fun v s' => (s'.set8 .a v).advance 1) (.ldAMem p) (by simpa using hf) (by simpa using hfam), exec_loadA]
    · cases p <;> rfl
    · intro v s' h'; refine ⟨_, rfl, ?_⟩; rw [finishInstr_of_fetch _ _ rfl]; rfl
  | xor z =>
    cases z with
    | reg r =>
      simp only [sourceOf, slotSrc, Src.value?, executePhase, hfam, executeFamily, bindNext, fetchedMeaning,
        fetchImmediate, Family.immBytes, fetched, instrOf]
      rw [finishInstr_of_fetch _ _ rfl, exec_xorReg]; cases r <;> rfl
    | mem =>
      simp only [sourceOf, slotSrc, Src.value?, bindNext, fetchedMeaning, fetchImmediate, Family.immBytes, fetched, instrOf]
      rw [finishInstr_read8 (n+2) _ _ xorWith (.xor .mem) (by simpa using hf) (by simpa using hfam)]
      · rfl
      · intro v s' h'; refine ⟨_, rfl, ?_⟩; rw [finishInstr_of_fetch _ _ rfl]; rfl
  | ldSlotSlot y z =>
    cases z with
    | reg r =>
      cases y with
      | reg dst =>
        simp only [sourceOf, slotSrc, slotDst, Src.value?, executePhase, hfam, executeFamily, bindNext, fetchedMeaning,
          fetchImmediate, Family.immBytes, fetched, instrOf]
        rw [finishInstr_of_fetch _ _ rfl, exec_copyReg]; cases dst <;> cases r <;> rfl
      | mem =>
        simp only [sourceOf, slotSrc, slotDst, Src.value?, executePhase, hfam, executeFamily, bindNext, fetchedMeaning,
          fetchImmediate, Family.immBytes, fetched, instrOf]
        rw [finishInstr_write8 _ _ _ _ (by simpa using hf), exec_storeReg]; cases r <;> rfl
    | mem =>
      cases y with
      | reg dst =>
        simp only [sourceOf, slotSrc, Src.value?, bindNext, fetchedMeaning, fetchImmediate, Family.immBytes, fetched, instrOf]
        rw [finishInstr_read8 (n+2) _ _ (fun v s' => (s'.set8 dst.reg8 v).advance 1) (.ldSlotSlot (.reg dst) .mem) (by simpa using hf) (by simpa using hfam), exec_loadReg]
        · rfl
        · intro v s' h'; refine ⟨_, rfl, ?_⟩; rw [slotDst, finishInstr_of_fetch _ _ rfl]; cases dst <;> rfl
      | mem => exact absurd rfl hnm
  | ldhImmA =>
    simp only [sourceOf, Src.value?, bindNext]
    rw [finishInstr_immediate (n+2) s .ldhImmA hf hfam rfl]; rfl
    intro v s' h'; refine ⟨_, _, rfl, rfl, ?_⟩; rw [finishInstr_write8 _ _ _ _ (by simpa using h')]; rfl
  | ldhCA =>
    simp only [sourceOf, Src.value?, executePhase, hfam, executeFamily, bindNext, fetchedMeaning, fetchImmediate,
      Family.immBytes, fetched, instrOf]
    rw [finishInstr_write8 _ _ _ _ (by simpa using hf)]; rfl
  | ldSlotImm y =>
    simp only [sourceOf, Src.value?, bindNext]
    rw [finishInstr_immediate (n+2) s (.ldSlotImm y) hf hfam rfl]; rfl
    intro v s' h'
    cases y with
    | reg dst => 
      refine ⟨_, _, rfl, rfl, ?_⟩; rw [slotDst, finishInstr_of_fetch _ _ rfl, exec_immReg]; cases dst <;> rfl
    | mem => refine ⟨_, _, rfl, rfl, ?_⟩; rw [slotDst, finishInstr_write8 _ _ _ _ (by simpa using h')]; rfl
  | incSlot y =>
    cases y with
    | reg r =>
      simp only [sourceOf, slotSrc, slotDst, Src.value?, executePhase, hfam, executeFamily, bindNext, fetchedMeaning,
        fetchImmediate, Family.immBytes, fetched, instrOf]
      rw [finishInstr_of_fetch _ _ rfl, exec_incReg]; cases r <;> rfl
    | mem =>
      simp only [sourceOf, slotSrc, Src.value?, bindNext, fetchedMeaning, fetchImmediate, Family.immBytes, fetched, instrOf]
      rw [finishInstr_read8 (n+2) _ _ (fun old s' => writeByte (s'.get16 .hl) (old + 1) ((s'.inc8 old).advance 1)) (.incSlot .mem) (by simpa using hf) (by simpa using hfam)]
      · rfl
      · intro v s' h'; refine ⟨_, rfl, ?_⟩; rw [slotDst, finishInstr_write8 _ _ _ _ (by simpa using h')]; rfl
  | incPair p =>
    simp only [sourceOf, Src.value?, executePhase, hfam, executeFamily, bindNext, fetchedMeaning, fetchImmediate,
      Family.immBytes, fetched, instrOf]
    rw [finishInstr_idle _ _ (by cases p <;> exact hf), exec_incPair]
    cases p <;> rfl
  | jr cc =>
    simp only [sourceOf, Src.value?, bindNext]
    rw [finishInstr_immediate (n+2) s (.jr cc) hf hfam rfl]; rfl
    intro v s' h'; refine ⟨_, _, rfl, rfl, ?_⟩
    rw [exec_jr]; unfold jumpRelative; simp only [State.setStage_f]
    by_cases hc : s'.f.test cc
    · simp only [hc, if_true]; rw [finishInstr_idle _ _ (by simpa using h')]; rfl
    · simp only [hc]; rw [finishInstr_of_fetch _ _ rfl]; rfl
  | push p =>
    simp only [sourceOf, Src.value?, executePhase, hfam, executeFamily, bindNext, fetchedMeaning, fetchImmediate,
      Family.immBytes, fetched, instrOf]
    rw [finishInstr_wait n _ _ _ (by exact hf), exec_push]; cases p <;> rfl
  | bit nb z =>
    cases z with
    | reg r =>
      simp only [sourceOf, slotSrc, Src.value?, executePhase, hfam, executeFamily, bindNext, fetchedMeaning,
        fetchImmediate, Family.immBytes, fetched, instrOf]
      rw [finishInstr_of_fetch _ _ rfl, exec_bitReg]; cases r <;> rfl
    | mem =>
      simp only [sourceOf, slotSrc, Src.value?, bindNext, fetchedMeaning, fetchImmediate, Family.immBytes, fetched, instrOf]
      rw [finishInstr_read8 (n+2) _ _ (bitTest nb) (.bit nb .mem) (by simpa using hf) (by simpa using hfam), exec_bitMem]
      · rfl
      · intro v s' h'; refine ⟨_, rfl, ?_⟩; rw [finishInstr_of_fetch _ _ rfl]; rfl

/-- The same with the family match (40_stage_machine.md R142). -/
theorem fetchFamily_eq (n) (s : State) (hf : s.flt = none) :
    (match fetchFamily s with | .raised s1 => (.next s1 : Host.Outcome State Fault Refusal) | .ok i s1 => exec i s1) = bindNext (decodePhase s) (finishInstr (n+3)) := by
  cases hfam : familyOf s.pfx s.opc with
  | none => simp only [fetchFamily, decodePhase, hfam, bindNext]; rw [finishInstr_of_latched]; rfl
  | some f => rw [decodePhase_then_finish n s hf f hfam]; simp only [fetchFamily, hfam, fetchedMeaning]

/-- At a boundary a step is its first M-cycle and the rest of the instruction. -/
theorem step_eq_cycle_then_finish (s : State) (hf : s.flt = none) (hs : s.stage = .fetch) :
    step s = bindNext (cycle s) (finishInstr 5) := by
  unfold step cycle
  simp only [hf, hs, Option.isSome_none, Bool.false_eq_true, if_false, if_true]
  by_cases hp : s.polled
  · simp only [hp, if_true, bindNext]; rw [finishInstr_of_latched]; rfl
  · simp only [hp, Bool.false_eq_true, if_false, fetchInstr, fetchCycle, readCycle]
    rcases busRead_cases s.tick s.pc with ⟨h, e⟩|⟨h,e⟩
    · simp only [State.tick_pc, e]
      by_cases hb : s.tick.busByte s.pc = 0xCB
      · simp only [hb, if_true, bindNext, fetchPrefixed, readCycle]
        generalize hX : (((s.tick.log (BusEvent.read s.pc 0xCB)).latch 0xCB false).movePc 1).setStage Stage.fetchPrefixed = X
        have hXs : X.stage = .fetchPrefixed := by rw [← hX]; rfl
        have hXf : X.flt = none := by rw [← hX]; exact hf
        have hc : cycle X = fetchPrefixedCycle X.tick := by simp [cycle, hXs, hXf]
        rw [finishInstr_succ _ _ (by simp [hXs]) hXf, hc]
        simp only [fetchPrefixedCycle]
        rcases busRead_cases X.tick X.pc with ⟨h2, e2⟩|⟨h2,e2⟩
        · simp only [State.tick_pc, e2]
          rw [← fetchFamily_eq 1 _ (by simpa using hXf)]
          all_goals (cases fetchFamily _ <;> rfl)
        · simp only [State.tick_pc, e2, bindNext]; rw [finishInstr_of_latched]; rfl
      · simp only [hb, if_false]
        rw [← fetchFamily_eq 2 _ (by simpa using hf)]
        all_goals (cases fetchFamily _ <;> rfl)
    · simp only [State.tick_pc, e, bindNext]; rw [finishInstr_of_latched]; rfl
/-! ## From M-cycles to steps -/

/-- What every M-cycle keeps, the rest of an instruction keeps. -/
theorem finishInstr_preserves (P : State → Prop) (hP : ∀ s t, P s → cycle s = .next t → P t) (n : Nat) :
    ∀ s t, P s → finishInstr n s = .next t → P t := by
  induction n with
  | zero => intro s t hs h; cases h; exact hs
  | succ n ih =>
    intro s t hs h
    simp only [finishInstr] at h
    split at h
    · cases h; exact hs
    · split at h
      · next u hu => exact ih u t (hP s u hs hu) h
      · cases h
      · cases h

/-- What every M-cycle keeps, every step keeps. -/
theorem step_preserves (P : State → Prop) (hP : ∀ s t, P s → cycle s = .next t → P t) {s t : State} (hs : P s)
    (h : step s = .next t) : P t := by
  by_cases hf : s.flt = none
  · by_cases hst : s.stage = .fetch
    · rw [step_eq_cycle_then_finish s hf hst] at h
      cases hc : cycle s with
      | next u => rw [hc] at h; exact finishInstr_preserves P hP 5 u t (hP s u hs hc) h
      | fault r => rw [hc] at h; cases h
      | refused r => rw [hc] at h; cases h
    · simp only [step, hf, hst, Option.isSome_none, Bool.false_eq_true, if_false] at h
      exact finishInstr_preserves P hP 5 s t hs h
  · have : s.flt.isSome := Option.isSome_iff_ne_none.mpr hf
    simp only [step, this, if_true] at h
    cases h; exact hs

end Sys2Proof.Machine
end

