-- ==== Sys2Proof/Tests/Slice0.lean ====
section
/-! SUPPORT. Tests. Expected values come from spec/: the encodings of opcode_table.json (30_encoding.md R123), the vectors and traces
of 95_test_vectors.md (named in the theorem), and, for each statement with hypotheses, a witness that meets them all. -/
namespace Sys2Proof.Machine.Tests

-- One theorem at a time: run side by side, so many start more threads than a memory limit allows.
set_option Elab.async false

/-! ## Well-formedness: what BootImage.wf refuses (70_reset_and_hazards.md R292) -/

theorem test_boot_image_of_256_bytes : BootImage.wf (List.replicate 256 0x00) = true := by decide +kernel

theorem test_shorter_boot_image_is_refused : BootImage.wf (List.replicate 255 0x00) = false := by decide +kernel

theorem test_longer_boot_image_is_refused : BootImage.wf (List.replicate 257 0x00) = false := by decide +kernel

theorem test_construction_of_256_bytes :
    (State.construct? (List.replicate 256 0x76) .znh).isSome = true := by decide +kernel

theorem test_construction_of_other_lengths_is_refused :
    State.construct? (List.replicate 255 0x76) .znh = none ∧ State.construct? (List.replicate 257 0x76) .znh = none := by decide +kernel

/-! ## Decoding: every constructor, the bytes written out bit by bit from the table's encoding column -/

theorem test_decode_load_pair : ∀ p ∈ ([
    ([0b00000001, 0b00110100, 0b00010010], .ldBcN16 0x1234),
    ([0b00010001, 0b00110100, 0b00010010], .ldDeN16 0x1234),
    ([0b00100001, 0b00110100, 0b00010010], .ldHlN16 0x1234),
    ([0b00110001, 0b00110100, 0b00010010], .ldSpN16 0x1234)] : List (List Byte × Instr)), decode p.1 = .ok (p.2, []) := by decide

theorem test_decode_store_a : ∀ p ∈ ([
    ([0b00000010], .ldBcMemFromA),
    ([0b00010010], .ldDeMemFromA),
    ([0b00100010], .ldHlIncFromA),
    ([0b00110010], .ldHlDecFromA)] : List (List Byte × Instr)), decode p.1 = .ok (p.2, []) := by decide

theorem test_decode_load_a : ∀ p ∈ ([
    ([0b00001010], .ldAFromBcMem),
    ([0b00011010], .ldAFromDeMem),
    ([0b00101010], .ldAFromHlInc),
    ([0b00111010], .ldAFromHlDec)] : List (List Byte × Instr)), decode p.1 = .ok (p.2, []) := by decide

theorem test_decode_xor : ∀ p ∈ ([
    ([0b10101000], .xorB),
    ([0b10101001], .xorC),
    ([0b10101010], .xorD),
    ([0b10101011], .xorE),
    ([0b10101100], .xorH),
    ([0b10101101], .xorL),
    ([0b10101110], .xorHlMem),
    ([0b10101111], .xorA)] : List (List Byte × Instr)), decode p.1 = .ok (p.2, []) := by decide

theorem test_decode_copy_0 : ∀ p ∈ ([
    ([0b01000000], .ldBFromB),
    ([0b01000001], .ldBFromC),
    ([0b01000010], .ldBFromD),
    ([0b01000011], .ldBFromE),
    ([0b01000100], .ldBFromH),
    ([0b01000101], .ldBFromL),
    ([0b01000110], .ldBFromHlMem),
    ([0b01000111], .ldBFromA)] : List (List Byte × Instr)), decode p.1 = .ok (p.2, []) := by decide

theorem test_decode_copy_1 : ∀ p ∈ ([
    ([0b01001000], .ldCFromB),
    ([0b01001001], .ldCFromC),
    ([0b01001010], .ldCFromD),
    ([0b01001011], .ldCFromE),
    ([0b01001100], .ldCFromH),
    ([0b01001101], .ldCFromL),
    ([0b01001110], .ldCFromHlMem),
    ([0b01001111], .ldCFromA)] : List (List Byte × Instr)), decode p.1 = .ok (p.2, []) := by decide

theorem test_decode_copy_2 : ∀ p ∈ ([
    ([0b01010000], .ldDFromB),
    ([0b01010001], .ldDFromC),
    ([0b01010010], .ldDFromD),
    ([0b01010011], .ldDFromE),
    ([0b01010100], .ldDFromH),
    ([0b01010101], .ldDFromL),
    ([0b01010110], .ldDFromHlMem),
    ([0b01010111], .ldDFromA)] : List (List Byte × Instr)), decode p.1 = .ok (p.2, []) := by decide

theorem test_decode_copy_3 : ∀ p ∈ ([
    ([0b01011000], .ldEFromB),
    ([0b01011001], .ldEFromC),
    ([0b01011010], .ldEFromD),
    ([0b01011011], .ldEFromE),
    ([0b01011100], .ldEFromH),
    ([0b01011101], .ldEFromL),
    ([0b01011110], .ldEFromHlMem),
    ([0b01011111], .ldEFromA)] : List (List Byte × Instr)), decode p.1 = .ok (p.2, []) := by decide

theorem test_decode_copy_4 : ∀ p ∈ ([
    ([0b01100000], .ldHFromB),
    ([0b01100001], .ldHFromC),
    ([0b01100010], .ldHFromD),
    ([0b01100011], .ldHFromE),
    ([0b01100100], .ldHFromH),
    ([0b01100101], .ldHFromL),
    ([0b01100110], .ldHFromHlMem),
    ([0b01100111], .ldHFromA)] : List (List Byte × Instr)), decode p.1 = .ok (p.2, []) := by decide

theorem test_decode_copy_5 : ∀ p ∈ ([
    ([0b01101000], .ldLFromB),
    ([0b01101001], .ldLFromC),
    ([0b01101010], .ldLFromD),
    ([0b01101011], .ldLFromE),
    ([0b01101100], .ldLFromH),
    ([0b01101101], .ldLFromL),
    ([0b01101110], .ldLFromHlMem),
    ([0b01101111], .ldLFromA)] : List (List Byte × Instr)), decode p.1 = .ok (p.2, []) := by decide

theorem test_decode_copy_6 : ∀ p ∈ ([
    ([0b01110000], .ldHlMemFromB),
    ([0b01110001], .ldHlMemFromC),
    ([0b01110010], .ldHlMemFromD),
    ([0b01110011], .ldHlMemFromE),
    ([0b01110100], .ldHlMemFromH),
    ([0b01110101], .ldHlMemFromL),
    ([0b01110111], .ldHlMemFromA),
    ([0b01111000], .ldAFromB)] : List (List Byte × Instr)), decode p.1 = .ok (p.2, []) := by decide

theorem test_decode_copy_7 : ∀ p ∈ ([
    ([0b01111001], .ldAFromC),
    ([0b01111010], .ldAFromD),
    ([0b01111011], .ldAFromE),
    ([0b01111100], .ldAFromH),
    ([0b01111101], .ldAFromL),
    ([0b01111110], .ldAFromHlMem),
    ([0b01111111], .ldAFromA)] : List (List Byte × Instr)), decode p.1 = .ok (p.2, []) := by decide

theorem test_decode_store_high_page : ∀ p ∈ ([
    ([0b11100000, 0b10011001], .ldhN8FromA 0x99)] : List (List Byte × Instr)), decode p.1 = .ok (p.2, []) := by decide

theorem test_decode_store_high_page_c : ∀ p ∈ ([
    ([0b11100010], .ldhCFromA)] : List (List Byte × Instr)), decode p.1 = .ok (p.2, []) := by decide

theorem test_decode_load_immediate : ∀ p ∈ ([
    ([0b00000110, 0b10011001], .ldBN8 0x99),
    ([0b00001110, 0b10011001], .ldCN8 0x99),
    ([0b00010110, 0b10011001], .ldDN8 0x99),
    ([0b00011110, 0b10011001], .ldEN8 0x99),
    ([0b00100110, 0b10011001], .ldHN8 0x99),
    ([0b00101110, 0b10011001], .ldLN8 0x99),
    ([0b00110110, 0b10011001], .ldHlMemN8 0x99),
    ([0b00111110, 0b10011001], .ldAN8 0x99)] : List (List Byte × Instr)), decode p.1 = .ok (p.2, []) := by decide

theorem test_decode_inc : ∀ p ∈ ([
    ([0b00000100], .incB),
    ([0b00001100], .incC),
    ([0b00010100], .incD),
    ([0b00011100], .incE),
    ([0b00100100], .incH),
    ([0b00101100], .incL),
    ([0b00110100], .incHlMem),
    ([0b00111100], .incA)] : List (List Byte × Instr)), decode p.1 = .ok (p.2, []) := by decide

theorem test_decode_inc_pair : ∀ p ∈ ([
    ([0b00000011], .incBc),
    ([0b00010011], .incDe),
    ([0b00100011], .incHl),
    ([0b00110011], .incSp)] : List (List Byte × Instr)), decode p.1 = .ok (p.2, []) := by decide

theorem test_decode_jump : ∀ p ∈ ([
    ([0b00100000, 0b10000001], .jrNz 0x81),
    ([0b00101000, 0b10000001], .jrZ 0x81),
    ([0b00110000, 0b10000001], .jrNc 0x81),
    ([0b00111000, 0b10000001], .jrC 0x81)] : List (List Byte × Instr)), decode p.1 = .ok (p.2, []) := by decide

theorem test_decode_push : ∀ p ∈ ([
    ([0b11000101], .pushBc),
    ([0b11010101], .pushDe),
    ([0b11100101], .pushHl),
    ([0b11110101], .pushAf)] : List (List Byte × Instr)), decode p.1 = .ok (p.2, []) := by decide

theorem test_decode_bit_0 : ∀ p ∈ ([
    ([0b11001011, 0b01000000], .bit0B),
    ([0b11001011, 0b01000001], .bit0C),
    ([0b11001011, 0b01000010], .bit0D),
    ([0b11001011, 0b01000011], .bit0E),
    ([0b11001011, 0b01000100], .bit0H),
    ([0b11001011, 0b01000101], .bit0L),
    ([0b11001011, 0b01000110], .bit0HlMem),
    ([0b11001011, 0b01000111], .bit0A)] : List (List Byte × Instr)), decode p.1 = .ok (p.2, []) := by decide

theorem test_decode_bit_1 : ∀ p ∈ ([
    ([0b11001011, 0b01001000], .bit1B),
    ([0b11001011, 0b01001001], .bit1C),
    ([0b11001011, 0b01001010], .bit1D),
    ([0b11001011, 0b01001011], .bit1E),
    ([0b11001011, 0b01001100], .bit1H),
    ([0b11001011, 0b01001101], .bit1L),
    ([0b11001011, 0b01001110], .bit1HlMem),
    ([0b11001011, 0b01001111], .bit1A)] : List (List Byte × Instr)), decode p.1 = .ok (p.2, []) := by decide

theorem test_decode_bit_2 : ∀ p ∈ ([
    ([0b11001011, 0b01010000], .bit2B),
    ([0b11001011, 0b01010001], .bit2C),
    ([0b11001011, 0b01010010], .bit2D),
    ([0b11001011, 0b01010011], .bit2E),
    ([0b11001011, 0b01010100], .bit2H),
    ([0b11001011, 0b01010101], .bit2L),
    ([0b11001011, 0b01010110], .bit2HlMem),
    ([0b11001011, 0b01010111], .bit2A)] : List (List Byte × Instr)), decode p.1 = .ok (p.2, []) := by decide

theorem test_decode_bit_3 : ∀ p ∈ ([
    ([0b11001011, 0b01011000], .bit3B),
    ([0b11001011, 0b01011001], .bit3C),
    ([0b11001011, 0b01011010], .bit3D),
    ([0b11001011, 0b01011011], .bit3E),
    ([0b11001011, 0b01011100], .bit3H),
    ([0b11001011, 0b01011101], .bit3L),
    ([0b11001011, 0b01011110], .bit3HlMem),
    ([0b11001011, 0b01011111], .bit3A)] : List (List Byte × Instr)), decode p.1 = .ok (p.2, []) := by decide

theorem test_decode_bit_4 : ∀ p ∈ ([
    ([0b11001011, 0b01100000], .bit4B),
    ([0b11001011, 0b01100001], .bit4C),
    ([0b11001011, 0b01100010], .bit4D),
    ([0b11001011, 0b01100011], .bit4E),
    ([0b11001011, 0b01100100], .bit4H),
    ([0b11001011, 0b01100101], .bit4L),
    ([0b11001011, 0b01100110], .bit4HlMem),
    ([0b11001011, 0b01100111], .bit4A)] : List (List Byte × Instr)), decode p.1 = .ok (p.2, []) := by decide

theorem test_decode_bit_5 : ∀ p ∈ ([
    ([0b11001011, 0b01101000], .bit5B),
    ([0b11001011, 0b01101001], .bit5C),
    ([0b11001011, 0b01101010], .bit5D),
    ([0b11001011, 0b01101011], .bit5E),
    ([0b11001011, 0b01101100], .bit5H),
    ([0b11001011, 0b01101101], .bit5L),
    ([0b11001011, 0b01101110], .bit5HlMem),
    ([0b11001011, 0b01101111], .bit5A)] : List (List Byte × Instr)), decode p.1 = .ok (p.2, []) := by decide

theorem test_decode_bit_6 : ∀ p ∈ ([
    ([0b11001011, 0b01110000], .bit6B),
    ([0b11001011, 0b01110001], .bit6C),
    ([0b11001011, 0b01110010], .bit6D),
    ([0b11001011, 0b01110011], .bit6E),
    ([0b11001011, 0b01110100], .bit6H),
    ([0b11001011, 0b01110101], .bit6L),
    ([0b11001011, 0b01110110], .bit6HlMem),
    ([0b11001011, 0b01110111], .bit6A)] : List (List Byte × Instr)), decode p.1 = .ok (p.2, []) := by decide

theorem test_decode_bit_7 : ∀ p ∈ ([
    ([0b11001011, 0b01111000], .bit7B),
    ([0b11001011, 0b01111001], .bit7C),
    ([0b11001011, 0b01111010], .bit7D),
    ([0b11001011, 0b01111011], .bit7E),
    ([0b11001011, 0b01111100], .bit7H),
    ([0b11001011, 0b01111101], .bit7L),
    ([0b11001011, 0b01111110], .bit7HlMem),
    ([0b11001011, 0b01111111], .bit7A)] : List (List Byte × Instr)), decode p.1 = .ok (p.2, []) := by decide

/-- The bytes R115 names beside the printed JR pattern (R105), HALT (R116) and SWAP A (R251): no instruction. -/
theorem test_unimplemented_bytes : ∀ p ∈ ([
    ([0x00], 0x00, false), ([0x08], 0x08, false), ([0x18], 0x18, false), ([0x76], 0x76, false), ([0xD3], 0xD3, false),
    ([0xCB, 0x37], 0x37, true), ([0xCB, 0xCB], 0xCB, true)] : List (List Byte × Byte × Bool)),
    decode p.1 = .error (.unimplementedOpcode p.2.1 p.2.2) := by decide

theorem test_table_words : decodeTableWord 8 0x41 = some .ldBFromC ∧ decodeTableWord 16 0xCB7C = some .bit7H ∧
    decodeTableWord 16 0x7CCB = some .bit7H ∧ decodeTableWord 24 0x123401 = some (.ldBcN16 0x1234) ∧
    decodeTableWord 8 0x06 = some (.ldBN8 0x00) ∧ decodeTableWord 8 0x76 = none := by decide

/-! ## One step: the vectors of 95_test_vectors.md section 2 -/

/-- A bus access, as the vectors write it. -/
inductive Access where
  | rd (addr : Word)
  | wr (addr : Word)
deriving DecidableEq, Repr

/-- The access of a bus event. -/
def accessOf : BusEvent → Access
  | .read a _ => .rd a
  | .write a _ => .wr a

/-- A vector's start state: the reset state, code at an address and PC there, and the memory bytes the vector sets. -/
def vector (pc : Word) (code : List Byte) (cells : List Host.Cell) : State :=
  { State.reset with
    pc := pc
    mem := cells.foldl (fun m c => m.write c.1 c.2) (State.reset.mem.store pc.toNat code) }

/-- A vector's end state: the six words, the fault, the M-cycles, the bus accesses in order, the memory bytes named. -/
def endsAs (o : Host.Outcome State Fault Refusal) (regs : List Word) (flt : Option FaultRecord) (cycles : Nat)
    (accesses : List Access) (cells : List Host.Cell) : Bool :=
  match o with
  | .next t =>
    t.dbgRegs == regs && t.flt == flt && t.clock == cycles && t.history.reverse.map accessOf == accesses &&
      cells.all (fun c => t.mem.read c.1 == c.2)
  | _ => false

theorem test_V1_1 : endsAs (step (vector 0xC000 [0x01, 0x34, 0x12] []))
    [0x1234, 0x0000, 0x0000, 0x0000, 0x0000, 0xC003] (none) 3 [.rd 0xC000, .rd 0xC001, .rd 0xC002]
    [] = true := by decide +kernel

theorem test_V1_3 : endsAs (step { vector 0xC000 [0x21, 0xFF, 0x9F] [] with hl := 0x1234 })
    [0x0000, 0x0000, 0x9FFF, 0x0000, 0x0000, 0xC003] (none) 3 [.rd 0xC000, .rd 0xC001, .rd 0xC002]
    [] = true := by decide +kernel

theorem test_V1_4 : endsAs (step (vector 0xC000 [0x31, 0xFE, 0xFF] []))
    [0x0000, 0x0000, 0x0000, 0x0000, 0xFFFE, 0xC003] (none) 3 [.rd 0xC000, .rd 0xC001, .rd 0xC002]
    [] = true := by decide +kernel

theorem test_V1_5 : endsAs (step (vector 0xFFFE [0x11] [(0xFFFF, 0x22), (0x0000, 0x33)]))
    [0x0000, 0x3322, 0x0000, 0x0000, 0x0000, 0x0001] (none) 3 [.rd 0xFFFE, .rd 0xFFFF, .rd 0x0000]
    [] = true := by decide +kernel

theorem test_V1_6 : endsAs (step { vector 0xDFFE [0x01, 0x34] [] with bc := 0x5555 })
    [0x5555, 0x0000, 0x0000, 0x0000, 0x0000, 0xDFFE] (some (.unmappedAddress 0xE000 false 0xDFFE)) 3 [.rd 0xDFFE, .rd 0xDFFF]
    [] = true := by decide +kernel

theorem test_V2_1 : endsAs (step { vector 0xC000 [0x02] [] with bc := 0xC010, a := 0x7E })
    [0xC010, 0x0000, 0x0000, 0x7E00, 0x0000, 0xC001] (none) 2 [.rd 0xC000, .wr 0xC010]
    [(0xC010, 0x7E)] = true := by decide +kernel

theorem test_V2_2 : endsAs (step { vector 0xC000 [0x12] [] with de := 0x8000, a := 0x01 })
    [0x0000, 0x8000, 0x0000, 0x0100, 0x0000, 0xC001] (none) 2 [.rd 0xC000, .wr 0x8000]
    [(0x8000, 0x01)] = true := by decide +kernel

theorem test_V2_3 : endsAs (step { vector 0xC100 [0x22] [] with hl := 0xC000, a := 0x42 })
    [0x0000, 0x0000, 0xC001, 0x4200, 0x0000, 0xC101] (none) 2 [.rd 0xC100, .wr 0xC000]
    [(0xC000, 0x42)] = true := by decide +kernel

theorem test_V2_4 : endsAs (step { vector 0xC100 [0x32] [] with hl := 0xC000, a := 0x42 })
    [0x0000, 0x0000, 0xBFFF, 0x4200, 0x0000, 0xC101] (none) 2 [.rd 0xC100, .wr 0xC000]
    [(0xC000, 0x42)] = true := by decide +kernel

theorem test_V2_5 : endsAs (step { vector 0xC000 [0x22] [] with hl := 0xFFFF, a := 0x1F })
    [0x0000, 0x0000, 0x0000, 0x1F00, 0x0000, 0xC001] (none) 2 [.rd 0xC000, .wr 0xFFFF]
    [(0xFFFF, 0x1F)] = true := by decide +kernel

theorem test_V2_6 : endsAs (step { vector 0xC000 [0x32] [] with a := 0x1F })
    [0x0000, 0x0000, 0xFFFF, 0x1F00, 0x0000, 0xC001] (some (.bootRomWrite 0x0000 0xC001)) 2 [.rd 0xC000]
    [] = true := by decide +kernel

theorem test_V2_7 : endsAs (step { vector 0xC000 [0x02] [] with bc := 0xA000, a := 0x1F })
    [0xA000, 0x0000, 0x0000, 0x1F00, 0x0000, 0xC001] (some (.unmappedAddress 0xA000 true 0xC001)) 2 [.rd 0xC000]
    [] = true := by decide +kernel

theorem test_V3_1 : endsAs (step { vector 0xC000 [0x0A] [(0x0000, 0x31)] with a := 0x99 })
    [0x0000, 0x0000, 0x0000, 0x3100, 0x0000, 0xC001] (none) 2 [.rd 0xC000, .rd 0x0000]
    [] = true := by decide +kernel

theorem test_V3_2 : endsAs (step { vector 0xC000 [0x1A] [(0xC123, 0xAB)] with de := 0xC123 })
    [0x0000, 0xC123, 0x0000, 0xAB00, 0x0000, 0xC001] (none) 2 [.rd 0xC000, .rd 0xC123]
    [] = true := by decide +kernel

theorem test_V3_4 : endsAs (step { vector 0xC000 [0x3A] [(0xC123, 0xAB)] with hl := 0xC123 })
    [0x0000, 0x0000, 0xC122, 0xAB00, 0x0000, 0xC001] (none) 2 [.rd 0xC000, .rd 0xC123]
    [] = true := by decide +kernel

theorem test_V3_5 : endsAs (step { vector 0xC000 [0x3A] [(0x0000, 0x31)] with a := 0x99 })
    [0x0000, 0x0000, 0xFFFF, 0x3100, 0x0000, 0xC001] (none) 2 [.rd 0xC000, .rd 0x0000]
    [] = true := by decide +kernel

theorem test_V3_6 : endsAs (step { vector 0xC000 [0x2A] [(0xFFFF, 0x1B)] with hl := 0xFFFF })
    [0x0000, 0x0000, 0x0000, 0x1B00, 0x0000, 0xC001] (none) 2 [.rd 0xC000, .rd 0xFFFF]
    [] = true := by decide +kernel

theorem test_V3_7 : endsAs (step { vector 0xC000 [0x1A] [] with de := 0x4000, a := 0x99 })
    [0x0000, 0x4000, 0x0000, 0x9900, 0x0000, 0xC000] (some (.unmappedAddress 0x4000 false 0xC000)) 2 [.rd 0xC000]
    [] = true := by decide +kernel

theorem test_V3_8 : endsAs (step { vector 0xC000 [0x2A] [] with hl := 0x4000, a := 0x99 })
    [0x0000, 0x0000, 0x4001, 0x9900, 0x0000, 0xC000] (some (.unmappedAddress 0x4000 false 0xC000)) 2 [.rd 0xC000]
    [] = true := by decide +kernel

theorem test_V4_2 : endsAs (step { vector 0xC000 [0xAF] [] with a := 0x5A, f := Flags.ofByte 0xF0 })
    [0x0000, 0x0000, 0x0000, 0x0080, 0x0000, 0xC001] (none) 1 [.rd 0xC000]
    [] = true := by decide +kernel

theorem test_V4_3 : endsAs (step { vector 0xC000 [0xA8] [] with bc := 0x0F00, a := 0xFF, f := Flags.ofByte 0xF0 })
    [0x0F00, 0x0000, 0x0000, 0xF000, 0x0000, 0xC001] (none) 1 [.rd 0xC000]
    [] = true := by decide +kernel

theorem test_V4_4 : endsAs (step { vector 0xC000 [0xA9] [] with bc := 0x003C, a := 0x3C })
    [0x003C, 0x0000, 0x0000, 0x0080, 0x0000, 0xC001] (none) 1 [.rd 0xC000]
    [] = true := by decide +kernel

theorem test_V4_5 : endsAs (step { vector 0xC000 [0xAD] [] with f := Flags.ofByte 0x70 })
    [0x0000, 0x0000, 0x0000, 0x0080, 0x0000, 0xC001] (none) 1 [.rd 0xC000]
    [] = true := by decide +kernel

theorem test_V4_7 : endsAs (step { vector 0xC000 [0xAE] [(0xC100, 0x12)] with hl := 0xC100, a := 0x12 })
    [0x0000, 0x0000, 0xC100, 0x0080, 0x0000, 0xC001] (none) 2 [.rd 0xC000, .rd 0xC100]
    [] = true := by decide +kernel

theorem test_V4_8 : endsAs (step { vector 0xC000 [0xAE] [] with hl := 0x7000, a := 0x12, f := Flags.ofByte 0x10 })
    [0x0000, 0x0000, 0x7000, 0x1210, 0x0000, 0xC000] (some (.unmappedAddress 0x7000 false 0xC000)) 2 [.rd 0xC000]
    [] = true := by decide +kernel

theorem test_V4_9 : endsAs (step { vector 0xC000 [0xAA] [] with de := 0x3500, a := 0x5A })
    [0x0000, 0x3500, 0x0000, 0x6F00, 0x0000, 0xC001] (none) 1 [.rd 0xC000]
    [] = true := by decide +kernel

theorem test_V5_1 : endsAs (step { vector 0xC000 [0x41] [] with bc := 0x1122 })
    [0x2222, 0x0000, 0x0000, 0x0000, 0x0000, 0xC001] (none) 1 [.rd 0xC000]
    [] = true := by decide +kernel

theorem test_V5_2 : endsAs (step { vector 0xC000 [0x65] [] with hl := 0x12AB })
    [0x0000, 0x0000, 0xABAB, 0x0000, 0x0000, 0xC001] (none) 1 [.rd 0xC000]
    [] = true := by decide +kernel

theorem test_V5_3 : endsAs (step { vector 0xC000 [0x7F] [] with a := 0x5A, f := Flags.ofByte 0xF0 })
    [0x0000, 0x0000, 0x0000, 0x5AF0, 0x0000, 0xC001] (none) 1 [.rd 0xC000]
    [] = true := by decide +kernel

theorem test_V5_4 : endsAs (step { vector 0xC000 [0x40] [] with bc := 0x7700 })
    [0x7700, 0x0000, 0x0000, 0x0000, 0x0000, 0xC001] (none) 1 [.rd 0xC000]
    [] = true := by decide +kernel

theorem test_V5_5 : endsAs (step { vector 0xC000 [0x46] [(0xC100, 0x55)] with hl := 0xC100 })
    [0x5500, 0x0000, 0xC100, 0x0000, 0x0000, 0xC001] (none) 2 [.rd 0xC000, .rd 0xC100]
    [] = true := by decide +kernel

theorem test_V5_6 : endsAs (step { vector 0xC000 [0x6E] [(0xC100, 0x55)] with hl := 0xC100 })
    [0x0000, 0x0000, 0xC155, 0x0000, 0x0000, 0xC001] (none) 2 [.rd 0xC000, .rd 0xC100]
    [] = true := by decide +kernel

theorem test_V5_7 : endsAs (step { vector 0xC000 [0x66] [(0xC100, 0xD0)] with hl := 0xC100 })
    [0x0000, 0x0000, 0xD000, 0x0000, 0x0000, 0xC001] (none) 2 [.rd 0xC000, .rd 0xC100]
    [] = true := by decide +kernel

theorem test_V5_8 : endsAs (step { vector 0xC000 [0x70] [] with bc := 0x1200, hl := 0xC100 })
    [0x1200, 0x0000, 0xC100, 0x0000, 0x0000, 0xC001] (none) 2 [.rd 0xC000, .wr 0xC100]
    [(0xC100, 0x12)] = true := by decide +kernel

theorem test_V5_9 : endsAs (step { vector 0xC000 [0x74] [] with hl := 0xC1C0 })
    [0x0000, 0x0000, 0xC1C0, 0x0000, 0x0000, 0xC001] (none) 2 [.rd 0xC000, .wr 0xC1C0]
    [(0xC1C0, 0xC1)] = true := by decide +kernel

theorem test_V5_10 : endsAs (step { vector 0xC000 [0x75] [] with hl := 0xC1C0 })
    [0x0000, 0x0000, 0xC1C0, 0x0000, 0x0000, 0xC001] (none) 2 [.rd 0xC000, .wr 0xC1C0]
    [(0xC1C0, 0xC0)] = true := by decide +kernel

theorem test_V5_11 : endsAs (step { vector 0xC000 [0x77] [] with hl := 0x0040, a := 0x01 })
    [0x0000, 0x0000, 0x0040, 0x0100, 0x0000, 0xC001] (some (.bootRomWrite 0x0040 0xC001)) 2 [.rd 0xC000]
    [] = true := by decide +kernel

theorem test_V5_14 : endsAs (step { vector 0xC000 [0x5E] [] with de := 0x0044, hl := 0xE000 })
    [0x0000, 0x0044, 0xE000, 0x0000, 0x0000, 0xC000] (some (.unmappedAddress 0xE000 false 0xC000)) 2 [.rd 0xC000]
    [] = true := by decide +kernel

theorem test_V6_1 : endsAs (step { vector 0xC000 [0xE0, 0x80] [] with a := 0x5A })
    [0x0000, 0x0000, 0x0000, 0x5A00, 0x0000, 0xC002] (none) 3 [.rd 0xC000, .rd 0xC001, .wr 0xFF80]
    [(0xFF80, 0x5A)] = true := by decide +kernel

theorem test_V6_4 : endsAs (step { vector 0xC000 [0xE0, 0x01] [] with a := 0x20 })
    [0x0000, 0x0000, 0x0000, 0x2000, 0x0000, 0xC002] (some (.unmappedAddress 0xFF01 true 0xC002)) 3 [.rd 0xC000, .rd 0xC001]
    [] = true := by decide +kernel

theorem test_V7_3 : endsAs (step { vector 0xC000 [0xE2] [] with bc := 0x007F, a := 0x5A })
    [0x007F, 0x0000, 0x0000, 0x5A00, 0x0000, 0xC001] (some (.unmappedAddress 0xFF7F true 0xC001)) 2 [.rd 0xC000]
    [] = true := by decide +kernel

theorem test_V7_4 : endsAs (step { vector 0xC000 [0xE2] [] with bc := 0x12FF, a := 0x5A })
    [0x12FF, 0x0000, 0x0000, 0x5A00, 0x0000, 0xC001] (none) 2 [.rd 0xC000, .wr 0xFFFF]
    [(0xFFFF, 0x5A)] = true := by decide +kernel

theorem test_V8_1 : endsAs (step (vector 0xC000 [0x06, 0x12] []))
    [0x1200, 0x0000, 0x0000, 0x0000, 0x0000, 0xC002] (none) 2 [.rd 0xC000, .rd 0xC001]
    [] = true := by decide +kernel

theorem test_V8_2 : endsAs (step { vector 0xC000 [0x26, 0x80] [] with hl := 0x00FF })
    [0x0000, 0x0000, 0x80FF, 0x0000, 0x0000, 0xC002] (none) 2 [.rd 0xC000, .rd 0xC001]
    [] = true := by decide +kernel

theorem test_V8_3 : endsAs (step { vector 0xC000 [0x3E, 0x76] [] with f := Flags.ofByte 0xF0 })
    [0x0000, 0x0000, 0x0000, 0x76F0, 0x0000, 0xC002] (none) 2 [.rd 0xC000, .rd 0xC001]
    [] = true := by decide +kernel

theorem test_V8_4 : endsAs (step { vector 0xC000 [0x36, 0x99] [] with hl := 0xDFFF })
    [0x0000, 0x0000, 0xDFFF, 0x0000, 0x0000, 0xC002] (none) 3 [.rd 0xC000, .rd 0xC001, .wr 0xDFFF]
    [(0xDFFF, 0x99)] = true := by decide +kernel

theorem test_V8_5 : endsAs (step (vector 0xC000 [0x36, 0x99] []))
    [0x0000, 0x0000, 0x0000, 0x0000, 0x0000, 0xC002] (some (.bootRomWrite 0x0000 0xC002)) 3 [.rd 0xC000, .rd 0xC001]
    [] = true := by decide +kernel

theorem test_V8_6 : endsAs (step { vector 0xDFFF [0x0E] [] with bc := 0x0033 })
    [0x0033, 0x0000, 0x0000, 0x0000, 0x0000, 0xDFFF] (some (.unmappedAddress 0xE000 false 0xDFFF)) 2 [.rd 0xDFFF]
    [] = true := by decide +kernel

theorem test_V9Z_2 : endsAs (step { vector 0xC000 [0x04] [] with bc := 0xFF00 })
    [0x0000, 0x0000, 0x0000, 0x00A0, 0x0000, 0xC001] (none) 1 [.rd 0xC000]
    [] = true := by decide +kernel

theorem test_V9Z_3 : endsAs (step { vector 0xC000 [0x3C] [] with a := 0x0F })
    [0x0000, 0x0000, 0x0000, 0x1020, 0x0000, 0xC001] (none) 1 [.rd 0xC000]
    [] = true := by decide +kernel

theorem test_V9Z_5 : endsAs (step { vector 0xC000 [0x0C] [] with bc := 0x00FF })
    [0x0000, 0x0000, 0x0000, 0x00A0, 0x0000, 0xC001] (none) 1 [.rd 0xC000]
    [] = true := by decide +kernel

theorem test_V9Z_6 : endsAs (step { vector 0xC000 [0x24] [] with hl := 0xFFFF })
    [0x0000, 0x0000, 0x00FF, 0x00A0, 0x0000, 0xC001] (none) 1 [.rd 0xC000]
    [] = true := by decide +kernel

theorem test_V9Z_7 : endsAs (step { vector 0xC000 [0x2C] [] with hl := 0xDFFE, f := Flags.ofByte 0xE0 })
    [0x0000, 0x0000, 0xDFFF, 0x0000, 0x0000, 0xC001] (none) 1 [.rd 0xC000]
    [] = true := by decide +kernel

theorem test_V9Z_8 : endsAs (step { vector 0xC000 [0x1C] [] with de := 0x007F, f := Flags.ofByte 0x10 })
    [0x0000, 0x0080, 0x0000, 0x0030, 0x0000, 0xC001] (none) 1 [.rd 0xC000]
    [] = true := by decide +kernel

theorem test_V9Z_11 : endsAs (step { vector 0xC000 [0x34] [(0xC100, 0x2F)] with hl := 0xC100, f := Flags.ofByte 0x80 })
    [0x0000, 0x0000, 0xC100, 0x0020, 0x0000, 0xC001] (none) 3 [.rd 0xC000, .rd 0xC100, .wr 0xC100]
    [(0xC100, 0x30)] = true := by decide +kernel

theorem test_V9Z_12 : endsAs (step { vector 0xC000 [0x34] [(0x0010, 0xFF)] with hl := 0x0010 })
    [0x0000, 0x0000, 0x0010, 0x00A0, 0x0000, 0xC001] (some (.bootRomWrite 0x0010 0xC001)) 3 [.rd 0xC000, .rd 0x0010]
    [] = true := by decide +kernel

theorem test_V9Z_14 : endsAs (step { vector 0xC000 [0x14] [] with f := Flags.ofByte 0xF0 })
    [0x0000, 0x0100, 0x0000, 0x0010, 0x0000, 0xC001] (none) 1 [.rd 0xC000]
    [] = true := by decide +kernel

theorem test_V9U_4 : endsAs (step { vector 0xC000 [0x3C] [] with a := 0xFF, f := Flags.ofByte 0xD0, inc8Flags := .unchanged })
    [0x0000, 0x0000, 0x0000, 0x00D0, 0x0000, 0xC001] (none) 1 [.rd 0xC000]
    [] = true := by decide +kernel

theorem test_V10_1 : endsAs (step { vector 0xC000 [0x03] [] with bc := 0x00FF })
    [0x0100, 0x0000, 0x0000, 0x0000, 0x0000, 0xC001] (none) 2 [.rd 0xC000]
    [] = true := by decide +kernel

theorem test_V10_2 : endsAs (step { vector 0xC000 [0x13] [] with de := 0x0013, f := Flags.ofByte 0xF0 })
    [0x0000, 0x0014, 0x0000, 0x00F0, 0x0000, 0xC001] (none) 2 [.rd 0xC000]
    [] = true := by decide +kernel

theorem test_V10_3 : endsAs (step { vector 0xC000 [0x23] [] with hl := 0xFFFF })
    [0x0000, 0x0000, 0x0000, 0x0000, 0x0000, 0xC001] (none) 2 [.rd 0xC000]
    [] = true := by decide +kernel

theorem test_V10_4 : endsAs (step { vector 0xC000 [0x33] [] with sp := 0xFFFF })
    [0x0000, 0x0000, 0x0000, 0x0000, 0x0000, 0xC001] (none) 2 [.rd 0xC000]
    [] = true := by decide +kernel

theorem test_V11_NZ_80 : endsAs (step { vector 0xC100 [0x20, 0x05] [] with f := Flags.ofByte 0x80 })
    [0x0000, 0x0000, 0x0000, 0x0080, 0x0000, 0xC102] (none) 2 [.rd 0xC100, .rd 0xC101]
    [] = true := by decide +kernel

theorem test_V11_e : endsAs (step (vector 0x0009 [0x20, 0x81] []))
    [0x0000, 0x0000, 0x0000, 0x0000, 0x0000, 0xFF8C] (none) 3 [.rd 0x0009, .rd 0x000A]
    [] = true := by decide +kernel

theorem test_V11_Z_80 : endsAs (step { vector 0xC100 [0x28, 0x05] [] with f := Flags.ofByte 0x80 })
    [0x0000, 0x0000, 0x0000, 0x0080, 0x0000, 0xC107] (none) 3 [.rd 0xC100, .rd 0xC101]
    [] = true := by decide +kernel

theorem test_V11_h : endsAs (step { vector 0xDFFF [0x28] [] with f := Flags.ofByte 0x80 })
    [0x0000, 0x0000, 0x0000, 0x0080, 0x0000, 0xDFFF] (some (.unmappedAddress 0xE000 false 0xDFFF)) 2 [.rd 0xDFFF]
    [] = true := by decide +kernel

theorem test_V11_NC_10 : endsAs (step { vector 0xC100 [0x30, 0x05] [] with f := Flags.ofByte 0x10 })
    [0x0000, 0x0000, 0x0000, 0x0010, 0x0000, 0xC102] (none) 2 [.rd 0xC100, .rd 0xC101]
    [] = true := by decide +kernel

theorem test_V11_f : endsAs (step (vector 0xFFF0 [0x30, 0x20] []))
    [0x0000, 0x0000, 0x0000, 0x0000, 0x0000, 0x0012] (none) 3 [.rd 0xFFF0, .rd 0xFFF1]
    [] = true := by decide +kernel

theorem test_V11_C_10 : endsAs (step { vector 0xC100 [0x38, 0x05] [] with f := Flags.ofByte 0x10 })
    [0x0000, 0x0000, 0x0000, 0x0010, 0x0000, 0xC107] (none) 3 [.rd 0xC100, .rd 0xC101]
    [] = true := by decide +kernel

theorem test_V11_C_80 : endsAs (step { vector 0xC100 [0x38, 0x05] [] with f := Flags.ofByte 0x80 })
    [0x0000, 0x0000, 0x0000, 0x0080, 0x0000, 0xC102] (none) 2 [.rd 0xC100, .rd 0xC101]
    [] = true := by decide +kernel

theorem test_V12_1 : endsAs (step { vector 0xC000 [0xC5] [] with bc := 0x1234, sp := 0xE000 })
    [0x1234, 0x0000, 0x0000, 0x0000, 0xDFFE, 0xC001] (none) 4 [.rd 0xC000, .wr 0xDFFE, .wr 0xDFFF]
    [(0xDFFE, 0x34), (0xDFFF, 0x12)] = true := by decide +kernel

theorem test_V12_2 : endsAs (step { vector 0xC000 [0xD5] [] with de := 0xABCD, sp := 0xFFFE })
    [0x0000, 0xABCD, 0x0000, 0x0000, 0xFFFC, 0xC001] (none) 4 [.rd 0xC000, .wr 0xFFFC, .wr 0xFFFD]
    [(0xFFFC, 0xCD), (0xFFFD, 0xAB)] = true := by decide +kernel

theorem test_V12_3 : endsAs (step { vector 0xC000 [0xE5] [] with hl := 0xC000, sp := 0xC002 })
    [0x0000, 0x0000, 0xC000, 0x0000, 0xC000, 0xC001] (none) 4 [.rd 0xC000, .wr 0xC000, .wr 0xC001]
    [(0xC000, 0x00), (0xC001, 0xC0)] = true := by decide +kernel

theorem test_V12_4 : endsAs (step { vector 0xC000 [0xF5] [] with sp := 0xE000, a := 0x5A, f := Flags.ofByte 0xB0 })
    [0x0000, 0x0000, 0x0000, 0x5AB0, 0xDFFE, 0xC001] (none) 4 [.rd 0xC000, .wr 0xDFFE, .wr 0xDFFF]
    [(0xDFFE, 0xB0), (0xDFFF, 0x5A)] = true := by decide +kernel

theorem test_V12_6 : endsAs (step { vector 0xC000 [0xC5] [] with bc := 0x1234, sp := 0x0001 })
    [0x1234, 0x0000, 0x0000, 0x0000, 0xFFFF, 0xC001] (some (.bootRomWrite 0x0000 0xC001)) 4 [.rd 0xC000, .wr 0xFFFF]
    [(0xFFFF, 0x34)] = true := by decide +kernel

theorem test_V13_1 : endsAs (step { vector 0xC000 [0xCB, 0x7C] [] with hl := 0x9F00, f := Flags.ofByte 0x80 })
    [0x0000, 0x0000, 0x9F00, 0x0020, 0x0000, 0xC002] (none) 2 [.rd 0xC000, .rd 0xC001]
    [] = true := by decide +kernel

theorem test_V13_2 : endsAs (step { vector 0xC000 [0xCB, 0x7C] [] with hl := 0x7F00 })
    [0x0000, 0x0000, 0x7F00, 0x00A0, 0x0000, 0xC002] (none) 2 [.rd 0xC000, .rd 0xC001]
    [] = true := by decide +kernel

theorem test_V13_3 : endsAs (step { vector 0xC000 [0xCB, 0x47] [] with a := 0x01, f := Flags.ofByte 0xD0 })
    [0x0000, 0x0000, 0x0000, 0x0130, 0x0000, 0xC002] (none) 2 [.rd 0xC000, .rd 0xC001]
    [] = true := by decide +kernel

theorem test_V13_4 : endsAs (step { vector 0xC000 [0xCB, 0x47] [] with a := 0xFE, f := Flags.ofByte 0x10 })
    [0x0000, 0x0000, 0x0000, 0xFEB0, 0x0000, 0xC002] (none) 2 [.rd 0xC000, .rd 0xC001]
    [] = true := by decide +kernel

theorem test_V13_5 : endsAs (step { vector 0xC000 [0xCB, 0x46] [(0xC100, 0x01)] with hl := 0xC100 })
    [0x0000, 0x0000, 0xC100, 0x0020, 0x0000, 0xC002] (none) 3 [.rd 0xC000, .rd 0xC001, .rd 0xC100]
    [] = true := by decide +kernel

theorem test_V13_6 : endsAs (step { vector 0xC000 [0xCB, 0x76] [(0xC100, 0xBF)] with hl := 0xC100 })
    [0x0000, 0x0000, 0xC100, 0x00A0, 0x0000, 0xC002] (none) 3 [.rd 0xC000, .rd 0xC001, .rd 0xC100]
    [] = true := by decide +kernel

theorem test_V13_7 : endsAs (step { vector 0xC000 [0xCB, 0x7E] [] with hl := 0x4000, f := Flags.ofByte 0x40 })
    [0x0000, 0x0000, 0x4000, 0x0040, 0x0000, 0xC001] (some (.unmappedAddress 0x4000 false 0xC001)) 3 [.rd 0xC000, .rd 0xC001]
    [] = true := by decide +kernel

theorem test_V13_8 : endsAs (step { vector 0xC000 [0xCB, 0x55] [] with hl := 0x0004 })
    [0x0000, 0x0000, 0x0004, 0x0020, 0x0000, 0xC002] (none) 2 [.rd 0xC000, .rd 0xC001]
    [] = true := by decide +kernel

theorem test_VU_2 : endsAs (step (vector 0xC000 [0x76] []))
    [0x0000, 0x0000, 0x0000, 0x0000, 0x0000, 0xC000] (some (.unimplementedOpcode 0x76 false 0xC000)) 1 [.rd 0xC000]
    [] = true := by decide +kernel

theorem test_VU_6 : endsAs (step (vector 0xC000 [0xCB, 0x37] []))
    [0x0000, 0x0000, 0x0000, 0x0000, 0x0000, 0xC001] (some (.unimplementedOpcode 0x37 true 0xC001)) 2 [.rd 0xC000, .rd 0xC001]
    [] = true := by decide +kernel

theorem test_VU_9 : endsAs (step { vector 0xC000 [0xD3] [] with bc := 0x3456, a := 0x12, f := Flags.ofByte 0xF0 })
    [0x3456, 0x0000, 0x0000, 0x12F0, 0x0000, 0xC000] (some (.unimplementedOpcode 0xD3 false 0xC000)) 1 [.rd 0xC000]
    [] = true := by decide +kernel

/-! ## One M-cycle: the traces of 95_test_vectors.md section 3 -/

/-- A trace line: the stage, PC, F, OPC and PFX after some M-cycles. -/
def traceLine (o : Host.Outcome State Fault Refusal) (stage : Stage) (pc : Word) (f opc : Byte) (pfx : Bool) : Bool :=
  match o with
  | .next t => t.stage == stage && t.pc == pc && t.get8 .f == f && t.opc == opc && t.pfx == pfx
  | _ => false

theorem test_T1_load_pair_in_M_cycles :
    traceLine (runCycles 1 (vector 0xC000 [0x01, 0x34, 0x12] [])) (.read (.read16 0xC001)) 0xC000 0x00 0x01 false = true ∧
    traceLine (runCycles 2 (vector 0xC000 [0x01, 0x34, 0x12] [])) (.read (.read16Hi 0xC002 0x34)) 0xC000 0x00 0x01 false = true ∧
    traceLine (runCycles 3 (vector 0xC000 [0x01, 0x34, 0x12] [])) .fetch 0xC003 0x00 0x01 false = true := by decide +kernel

/-- The start state of trace T2. -/
def pushBcState : State := { vector 0xC000 [0xC5] [] with sp := 0xE000, bc := 0x1234 }

theorem test_T2_push_in_M_cycles :
    traceLine (runCycles 1 pushBcState) (.wait (.write16 0xDFFE 0x1234)) 0xC001 0x00 0xC5 false = true ∧
    traceLine (runCycles 2 pushBcState) (.write (.write16 0xDFFE 0x1234)) 0xC001 0x00 0xC5 false = true ∧
    traceLine (runCycles 3 pushBcState) (.write (.write16Hi 0xDFFF 0x12)) 0xC001 0x00 0xC5 false = true ∧
    traceLine (runCycles 4 pushBcState) .fetch 0xC001 0x00 0xC5 false = true := by decide +kernel

/-- The start state of trace T3. -/
def bitHlState : State := { vector 0xC000 [0xCB, 0x46] [(0xC100, 0x01)] with hl := 0xC100 }

theorem test_T3_bit_memory_in_M_cycles :
    traceLine (runCycles 1 bitHlState) .fetchPrefixed 0xC001 0x00 0xCB false = true ∧
    traceLine (runCycles 2 bitHlState) (.read (.read8 0xC100)) 0xC001 0x00 0x46 true = true ∧
    traceLine (runCycles 3 bitHlState) .fetch 0xC002 0x20 0x46 true = true := by decide +kernel

/-- The start state of trace T4. -/
def incHlState : State := { vector 0xC000 [0x34] [(0xC100, 0x0F)] with hl := 0xC100 }

theorem test_T4_inc_memory_in_M_cycles :
    traceLine (runCycles 1 incHlState) (.read (.read8 0xC100)) 0xC000 0x00 0x34 false = true ∧
    traceLine (runCycles 2 incHlState) (.write (.write8 0xC100 0x10)) 0xC001 0x20 0x34 false = true ∧
    traceLine (runCycles 3 incHlState) .fetch 0xC001 0x20 0x34 false = true := by decide +kernel

/-- The start state of trace T5. -/
def jumpState : State := { vector 0xC000 [0x28, 0x05] [] with f := Flags.ofByte 0x80 }

theorem test_T5_jump_in_M_cycles :
    traceLine (runCycles 1 jumpState) (.read (.read8 0xC001)) 0xC000 0x80 0x28 false = true ∧
    traceLine (runCycles 2 jumpState) (.write .none) 0xC007 0x80 0x28 false = true ∧
    traceLine (runCycles 3 jumpState) .fetch 0xC007 0x80 0x28 false = true := by decide +kernel

theorem test_T9_fault_stickiness :
    endsAs (runCycles 1 State.reset) [0, 0, 0, 0, 0, 0] (some (.unimplementedOpcode 0x00 false 0x0000)) 1 [.rd 0x0000] [] = true ∧
    runCycles 2 State.reset = runCycles 1 State.reset := ⟨by decide +kernel, rfl⟩

/-! ## The host's two questions -/

/-- A row's word decodes, and the first step after reset runs it and ends at a boundary. -/
def rowRuns (nbits w : Nat) : Bool :=
  (decodeTableWord nbits w).isSome &&
  match step (State.reset.withFetchWord nbits w) with
  | .next t => t.opc == BitVec.ofNat 8 (if nbits = 16 && w / 256 == 0xCB then w % 256 else w) && t.clock ≥ 1
  | _ => false

theorem test_rows_run_after_reset :
    ∀ p ∈ ([(24, 0x01), (8, 0x02), (8, 0x0A), (16, 0x06), (16, 0x20), (8, 0x34), (8, 0x41), (8, 0x7F), (8, 0xAE), (16, 0xE0), (8, 0xE2),
      (8, 0xF5), (16, 0xCB40), (16, 0xCB7E)] : List (Nat × Nat)), rowRuns p.1 p.2 = true := by decide +kernel

/-! ## Witnesses: the hypotheses of each statement can be met -/

theorem witness_DecodeEncodeRoundTrip : Instr.wf (.ldBcN16 0xFFFF) = true := rfl

theorem witness_EncodeDecodeRoundTrip : decode [0x01, 0x34, 0x12, 0xCB] = .ok (.ldBcN16 0x1234, [0xCB]) := by decide

theorem witness_PatternOrderIsUnobservable :
    (⟨0xC0, 0x40, some 0x76, fun b => .ldSlotSlot (slotY b) (slotZ b)⟩ : Pattern) ∈ unprefixedPatterns ∧
    (⟨0xC0, 0x40, some 0x76, fun b => .ldSlotSlot (slotY b) (slotZ b)⟩ : Pattern).takes 0x7F = true :=
  ⟨.tail _ (.tail _ (.tail _ (.tail _ (.head _)))), by decide⟩

theorem witness_UnimplementedBytesAreListed : (0xF6 : Byte) ≠ 0xCB ∧ familyOf false 0xF6 = none ∧ familyOf false 0xF5 ≠ none := by decide

theorem witness_RegisterHalvesAliasTheirPair : ∀ p ∈ [Reg16.bc, .de, .hl, .af], ∃ hi lo, (p, hi, lo) ∈ pairsWithHalves := by
  intro p hp
  simp only [List.mem_cons, List.not_mem_nil, or_false] at hp
  obtain rfl | rfl | rfl | rfl := hp
  · exact ⟨.b, .c, by decide⟩
  · exact ⟨.d, .e, by decide⟩
  · exact ⟨.h, .l, by decide⟩
  · exact ⟨.a, .f, by decide⟩

theorem witness_RegisterWritesStaySeparate : (Reg16.af, Reg8.a, Reg8.f) ∈ pairsWithHalves ∧ Reg16.sp ≠ .af := by decide

/-- Both ends of every range of R69 and R77. -/
theorem witness_AddressMapIsAPartition :
    regionOf 0x0000 = some .bootRom ∧ regionOf 0x00FF = some .bootRom ∧ regionOf 0x0100 = none ∧ regionOf 0x7FFF = none ∧
    regionOf 0x8000 = some .vram ∧ regionOf 0x9FFF = some .vram ∧ regionOf 0xA000 = none ∧ regionOf 0xBFFF = none ∧
    regionOf 0xC000 = some .workRam ∧ regionOf 0xDFFF = some .workRam ∧ regionOf 0xE000 = none ∧ regionOf 0xFDFF = none ∧
    regionOf 0xFE00 = some .oam ∧ regionOf 0xFE9F = some .oam ∧ regionOf 0xFEA0 = none ∧ regionOf 0xFEFF = none ∧
    regionOf 0xFF00 = some .joypad ∧ regionOf 0xFF01 = none ∧ regionOf 0xFF0F = none ∧
    regionOf 0xFF10 = some .audio ∧ regionOf 0xFF3F = some .audio ∧ regionOf 0xFF40 = some .graphicsControl ∧
    regionOf 0xFF4B = some .graphicsControl ∧ regionOf 0xFF4C = none ∧ regionOf 0xFF7F = none ∧
    regionOf 0xFF80 = some .highRam ∧ regionOf 0xFFFE = some .highRam ∧ regionOf 0xFFFF = some .interruptEnable := by decide

theorem witness_AddressMapIsAPartition_rows :
    (⟨0xFFFF, 0xFFFF, .interruptEnable⟩ : RegionRow) ∈ regionTable ∧
    (⟨0xFFFF, 0xFFFF, .interruptEnable⟩ : RegionRow).holds 0xFFFF = true := by decide

theorem witness_BusReadFollowsTheTable :
    regionOf 0x0100 = none ∧ regionOf 0xFF00 = some .joypad ∧ Region.joypad.isDevice = true ∧ regionOf 0xFFFE = some .highRam ∧
    Region.highRam.isDevice = false := by decide

theorem witness_BusWriteFollowsTheTable :
    regionOf 0xFF7F = none ∧ regionOf 0x00FF = some .bootRom ∧ regionOf 0x8000 = some .vram ∧ Region.vram ≠ .bootRom ∧
    regionOf 0xFF4B = some .graphicsControl ∧ Region.graphicsControl ≠ .bootRom := by decide

theorem witness_ReadReturnsLastWrite :
    (∃ t, busWrite 0xC000 0x42 State.reset = .ok () t) ∧ isStorage (0xC000 : Word).toNat = true ∧
    isStorage (0xFFFF : Word).toNat = true := ⟨⟨_, rfl⟩, by decide, by decide⟩

/-- Addresses at the ends of the ranges that take a write, and that answer a read. -/
theorem witness_writable_addresses :
    Writable 0x8000 ∧ Writable 0x9FFF ∧ Writable 0xC000 ∧ Writable 0xDFFF ∧ Writable 0xFE00 ∧ Writable 0xFE9F ∧ Writable 0xFF00 ∧
    Writable 0xFF10 ∧ Writable 0xFF4B ∧ Writable 0xFF80 ∧ Writable 0xFFFE ∧ Writable 0xFFFF ∧ ¬ Writable 0x00FF ∧ ¬ Writable 0x7FFF ∧
    Readable 0x0000 ∧ Readable 0x00FF ∧ Readable 0xFFFF ∧ ¬ Readable 0x0100 := by decide

theorem witness_StoreAThroughPairResult :
    (MemSel.bc, Reg16.bc) ∈ [(MemSel.bc, Reg16.bc), (MemSel.de, Reg16.de)] ∧
    Writable ({ State.reset with bc := 0x8000 }.get16 .bc) ∧ (MemSel.de, Reg16.de) ∈ [(MemSel.bc, Reg16.bc), (MemSel.de, Reg16.de)] ∧
    Writable ({ State.reset with de := 0xFFFF }.get16 .de) := by decide

theorem witness_StoreAThroughHlResult :
    (MemSel.hlInc, (1 : Word)) ∈ [(MemSel.hlInc, (1 : Word)), (MemSel.hlDec, 0xFFFF)] ∧
    (MemSel.hlDec, (0xFFFF : Word)) ∈ [(MemSel.hlInc, (1 : Word)), (MemSel.hlDec, 0xFFFF)] ∧
    Writable ({ State.reset with hl := 0xFFFF }.get16 .hl) := by decide

theorem witness_LoadAThroughPairResult :
    (MemSel.bc, Reg16.bc) ∈ [(MemSel.bc, Reg16.bc), (MemSel.de, Reg16.de)] ∧ Readable (State.reset.get16 .bc) ∧
    (MemSel.de, Reg16.de) ∈ [(MemSel.bc, Reg16.bc), (MemSel.de, Reg16.de)] ∧ Readable (State.reset.get16 .de) := by decide

theorem witness_LoadAThroughHlResult :
    (MemSel.hlInc, (1 : Word)) ∈ [(MemSel.hlInc, (1 : Word)), (MemSel.hlDec, 0xFFFF)] ∧
    (MemSel.hlDec, (0xFFFF : Word)) ∈ [(MemSel.hlInc, (1 : Word)), (MemSel.hlDec, 0xFFFF)] ∧ Readable (State.reset.get16 .hl) := by decide

/-- For `LoadRegisterFromMemoryResult`, `XorMemoryResult` and `BitMemoryResult`: HL readable. -/
theorem witness_LoadRegisterFromMemoryResult : Readable (State.reset.get16 .hl) ∧ Readable ({ State.reset with hl := 0xFF00 }.get16 .hl) := by
  decide

theorem witness_XorMemoryResult : Readable ({ State.reset with hl := 0x00FF }.get16 .hl) := by decide

theorem witness_BitMemoryResult : Readable ({ State.reset with hl := 0xFE9F }.get16 .hl) := by decide

/-- For `StoreRegisterToMemoryResult`, `StoreImmediateToMemoryResult` and `IncMemoryResult`: HL writable. -/
theorem witness_StoreRegisterToMemoryResult : Writable ({ State.reset with hl := 0xC000 }.get16 .hl) := by decide

theorem witness_StoreImmediateToMemoryResult : Writable ({ State.reset with hl := 0xDFFF }.get16 .hl) := by decide

theorem witness_IncMemoryResult : Writable ({ State.reset with hl := 0xFFFF }.get16 .hl) := by decide

theorem witness_incFlagsRule : State.reset.inc8Flags = .znh ∧ { State.reset with inc8Flags := .unchanged }.inc8Flags = .unchanged := by decide

theorem witness_HighPageStoreResult :
    (∃ (i : Instr) (off : Byte) (len : Word), (i = .ldhN8FromA off ∧ len = 2) ∧ Writable (BitVec.ofNat 16 (0xFF00 + off.toNat))) ∧
    ∃ (i : Instr) (off : Byte) (len : Word), (i = .ldhCFromA ∧ off = { State.reset with bc := 0x00FF }.get8 .c ∧ len = 1) ∧
      Writable (BitVec.ofNat 16 (0xFF00 + off.toNat)) :=
  ⟨⟨_, 0x00, _, ⟨rfl, rfl⟩, by decide⟩, ⟨_, _, _, ⟨rfl, rfl, rfl⟩, by decide⟩⟩

theorem witness_JumpRelativeResult :
    jrTaken .nz State.reset ∧ ¬ jrTaken .z State.reset ∧ jrTaken .nc State.reset ∧ ¬ jrTaken .c State.reset ∧
    jrTaken .c { State.reset with f := ⟨false, false, false, true⟩ } ∧ jrTaken .z { State.reset with f := ⟨true, false, false, false⟩ } := by
  refine ⟨?_, ?_, ?_, ?_, ?_, ?_⟩ <;> simp [jrTaken, State.reset, State.constructWith]

/-- SP at its reset value: the low byte goes to 0xFFFE and the high byte to IE (vector V12.5). -/
theorem witness_PushResult : Writable (State.reset.sp - 2) ∧ Writable (State.reset.sp - 1) := by decide

theorem witness_DataReadFaultIsLatched :
    (MemSel.de, Reg16.de) ∈ [(MemSel.bc, Reg16.bc), (MemSel.de, Reg16.de)] ∧ regionOf ({ State.reset with de := 0x0100 }.get16 .de) = none ∧
    regionOf ({ State.reset with hl := 0x7FFF }.get16 .hl) = none ∧ regionOf ({ State.reset with bc := 0xFF7F }.get16 .bc) = none := by decide

theorem witness_DataWriteFaultIsLatched :
    writeFault ({ State.reset with bc := 0xA000 }.get16 .bc) (State.reset.pc + 1) = some (.unmappedAddress 0xA000 true 0x0001) ∧
    writeFault (State.reset.get16 .de) (State.reset.pc + 1) = some (.bootRomWrite 0x0000 0x0001) ∧
    writeFault (State.reset.get16 .hl) (State.reset.pc + 1) = some (.bootRomWrite 0x0000 0x0001) ∧
    writeFault ({ State.reset with hl := 0x00FF }.get16 .hl) (State.reset.pc + 2) = some (.bootRomWrite 0x00FF 0x0002) ∧
    writeFault (BitVec.ofNat 16 (0xFF00 + (0x01 : Byte).toNat)) (State.reset.pc + 2) = some (.unmappedAddress 0xFF01 true 0x0002) ∧
    writeFault (BitVec.ofNat 16 (0xFF00 + ({ State.reset with bc := 0x007F }.get8 .c).toNat)) (State.reset.pc + 1) =
      some (.unmappedAddress 0xFF7F true 0x0001) ∧
    writeFault 0x8000 0x0001 = none := by decide

theorem witness_IncBootRomByteFaults : regionOf ({ State.reset with hl := 0x00FF }.get16 .hl) = some .bootRom := by decide

/-- Vectors V12.7, V12.6 and V12.8. -/
theorem witness_PushFaultIsLatched :
    writeFault ((0x0002 : Word) - 2) (0xC000 + 1) = some (.bootRomWrite 0x0000 0xC001) ∧
    Writable ((0x0001 : Word) - 2) ∧ writeFault ((0x0001 : Word) - 1) (0xC000 + 1) = some (.bootRomWrite 0x0000 0xC001) ∧
    Writable ((0xE001 : Word) - 2) ∧ writeFault ((0xE001 : Word) - 1) (0xC000 + 1) = some (.unmappedAddress 0xE000 true 0xC001) := by decide

theorem witness_FetchFaultIsLatched_opcode :
    { State.reset with pc := 0x0100 }.Ready ∧ regionOf { State.reset with pc := 0x0100 }.pc = none := by decide

theorem witness_FetchFaultIsLatched_prefix :
    (vector 0xDFFF [0xCB] []).Ready ∧ (∃ s1, readRun 1 (vector 0xDFFF [0xCB] []).pc (vector 0xDFFF [0xCB] []) = .ok [0xCB] s1) ∧
    regionOf ((vector 0xDFFF [0xCB] []).pc + 1) = none := ⟨by decide, ⟨_, rfl⟩, by decide⟩

theorem witness_FetchFaultIsLatched_immediate :
    (vector 0xDFFF [0x3E] []).Ready ∧ (∃ s1, readRun 1 (vector 0xDFFF [0x3E] []).pc (vector 0xDFFF [0x3E] []) = .ok [0x3E] s1) ∧
    (∃ f, familyOf false 0x3E = some f ∧ 1 ≤ f.immBytes) ∧ regionOf ((vector 0xDFFF [0x3E] []).pc + 1) = none :=
  ⟨by decide, ⟨_, rfl⟩, ⟨_, rfl, by decide⟩, by decide⟩

theorem witness_FetchFaultIsLatched_high_immediate :
    (vector 0xDFFE [0x01, 0x34] []).Ready ∧
    (∃ s1, readRun 2 (vector 0xDFFE [0x01, 0x34] []).pc (vector 0xDFFE [0x01, 0x34] []) = .ok [0x01, 0x34] s1) ∧
    (∃ f, familyOf false 0x01 = some f ∧ f.immBytes = 2) ∧ regionOf ((vector 0xDFFE [0x01, 0x34] []).pc + 2) = none :=
  ⟨by decide, ⟨_, rfl⟩, ⟨_, rfl, by decide⟩, by decide⟩

/-- The reset state itself: its first byte is 0x00. -/
theorem witness_UnimplementedOpcodeIsLatched :
    State.reset.Ready ∧ (∃ s1, readRun 1 State.reset.pc State.reset = .ok [0x00] s1) ∧ listedUnimplemented 0x00 :=
  ⟨by decide, ⟨_, rfl⟩, .inl (by decide)⟩

/-- Both ends of every range of R250, and the bytes just outside. -/
theorem witness_UnimplementedOpcodeIsLatched_bytes :
    (∀ b ∈ ([0x00, 0x05, 0x3F, 0x76, 0x80, 0xA7, 0xB0, 0xC4, 0xC6, 0xCA, 0xCC, 0xD4, 0xD6, 0xDF, 0xE1, 0xE3, 0xE4, 0xE6, 0xEF, 0xF0, 0xF4,
      0xF6, 0xFF] : List Byte), listedUnimplemented b) ∧
    ∀ b ∈ ([0x01, 0x04, 0x75, 0x77, 0x7F, 0xA8, 0xAF, 0xC5, 0xCB, 0xD5, 0xE0, 0xE2, 0xE5, 0xF5] : List Byte), ¬ listedUnimplemented b := by
  constructor <;> (intro b hb; fin_cases hb <;> simp [listedUnimplemented])

theorem witness_PrefixedUnimplementedOpcodeIsLatched :
    (vector 0x0010 [0xCB, 0x3F] []).Ready ∧
    (∃ s1, readRun 2 (vector 0x0010 [0xCB, 0x3F] []).pc (vector 0x0010 [0xCB, 0x3F] []) = .ok [0xCB, 0x3F] s1) ∧
    ((0x3F : Byte).toNat < 0x40 ∨ 0x80 ≤ (0x3F : Byte).toNat) := ⟨by decide, ⟨_, rfl⟩, by decide⟩

theorem witness_LatchedFaultIsSticky :
    (State.reset.raise (.unimplementedOpcode 0x00 false 0x0000)).flt ≠ none ∧ ∃ t, drive true true State.reset = .next t :=
  ⟨by decide, ⟨_, rfl⟩⟩

theorem witness_InterruptPollOnlyAtFetch :
    { State.reset with ime := true }.flt = none ∧ { State.reset with ime := true }.stage = .fetch ∧
    { State.reset with ime := true }.ime = true ∧ { State.reset with stage := .fetchPrefixed }.stage ≠ .fetch := by decide

theorem witness_OnlyDataStoresRaiseBootRomWrite :
    State.reset.flt = none ∧ ∃ t, exec .incHlMem State.reset = .next t ∧ t.flt = some (.bootRomWrite 0x0000 0x0001) :=
  ⟨rfl, _, rfl, rfl⟩

theorem witness_StepRunsDecodedInstruction :
    (vector 0xC000 [0xCB, 0x7C] []).Ready ∧ decode [0xCB, 0x7C] = .ok (.bit7H, []) ∧ Instr.wf .bit7H = true ∧
    (∃ s1, readRun 2 (vector 0xC000 [0xCB, 0x7C] []).pc (vector 0xC000 [0xCB, 0x7C] []) = .ok [0xCB, 0x7C] s1) :=
  ⟨by decide, by decide, rfl, ⟨_, rfl⟩⟩

theorem witness_StepIsMCyclesToBoundary : State.reset.flt = none ∧ State.reset.stage = .fetch := ⟨rfl, rfl⟩

theorem witness_SuspendAndResume :
    pushBcState.flt = none ∧ ∃ s1, cycle pushBcState = .next s1 ∧ s1.atBoundary = false := ⟨rfl, _, rfl, by decide +kernel⟩

theorem witness_StepsEndAtBoundaries : ∃ t, step pushBcState = .next t := ⟨_, rfl⟩

theorem witness_ScheduleMatchesTable :
    pushBcState.Ready ∧ instrOf (.push .bc) 0x00 0x00 = some .pushBc ∧
    (∃ s1, readRun (Instr.length .pushBc) pushBcState.pc pushBcState = .ok (encode .pushBc) s1) ∧
    ∃ t, step pushBcState = .next t ∧ t.flt = none := ⟨by decide, rfl, ⟨_, rfl⟩, _, rfl, by decide +kernel⟩

theorem witness_CycleMakesAtMostOneAccess : ∃ t, cycle pushBcState = .next t := ⟨_, rfl⟩

theorem witness_InvariantIsKept : State.reset.Inv ∧ (∃ t, step State.reset = .next t) ∧ ∃ t, cycle State.reset = .next t :=
  ⟨⟨by decide, by decide, rfl⟩, ⟨_, rfl⟩, ⟨_, rfl⟩⟩

theorem witness_ExecuteNeverFailsOnAgreeingLatches :
    { State.reset with stage := .read (.read16Hi 0xC002 0x34), opc := 0x31 }.latchesAgree = true := by decide

theorem witness_CarryAndImeStayClear :
    pushBcState.f.c = false ∧ pushBcState.ime = false ∧ (∃ t, step pushBcState = .next t) ∧ ∃ t, cycle pushBcState = .next t :=
  ⟨rfl, rfl, ⟨_, rfl⟩, ⟨_, rfl⟩⟩

theorem witness_BootRomAndParametersNeverChange : (∃ t, step incHlState = .next t) ∧ (0xFF : Nat) < 0x100 := ⟨⟨_, rfl⟩, by decide⟩

theorem witness_FlagAndStackPointerWriters :
    (∃ t, exec .bit7H State.reset = .next t ∧ t.f ≠ State.reset.f) ∧ ∃ t, exec .incSp State.reset = .next t ∧ t.sp ≠ State.reset.sp :=
  ⟨⟨_, rfl, by decide +kernel⟩, ⟨_, rfl, by decide +kernel⟩⟩

theorem witness_ResultsDoNotDependOnTheClock : State.reset.ime = false := rfl

theorem witness_ConstructionTakes256Bytes :
    (List.replicate 256 (0x76 : Byte)).length = 256 ∧ (List.replicate 255 (0x76 : Byte)).length ≠ 256 ∧
    (List.replicate 257 (0x76 : Byte)).length ≠ 256 := by
  rw [List.length_replicate, List.length_replicate, List.length_replicate]; decide

theorem witness_ResetRestoresTheResetState : State.reset.Inv := ⟨by decide, by decide, rfl⟩

end Sys2Proof.Machine.Tests
end

section
/-! The bus accesses of one M-cycle (40_stage_machine.md R151). A bus operation, and each step of the operand resolver built on it,
either answers the access it was asked for or refuses it with a fault; what an M-cycle does afterwards leaves the bus history alone. -/
namespace Sys2Proof.Machine

/-! ## An access answered, or refused -/

/-- In `t` the access `q` has been answered: its event, and no other, is new in the bus history `old`. Without an access the history is
`old` still. -/
inductive Answered (old : List BusEvent) (t : State) : Option BusRequest → Prop where
  | idle (history : t.history = old) : Answered old t none
  | read {a : Word} {v : Byte} (history : t.history = .read a v :: old) : Answered old t (some (.read a))
  | write {a : Word} {v : Byte} (history : t.history = .write a v :: old) : Answered old t (some (.write a v))

/-- In `t` the access `q` has been refused: `bus_err` reports it, a fault is latched and the bus history is `old` still. -/
inductive Refused (old : List BusEvent) (t : State) : Option BusRequest → Prop where
  | error {r : BusRequest} (busErr : r.error ≠ .none) (latched : t.flt ≠ none) (history : t.history = old) :
      Refused old t (some r)

/-- What is done after the access without touching the bus history. -/
theorem Answered.then {old : List BusEvent} {t u : State} {q : Option BusRequest} (h : Answered old t q)
    (hu : u.history = t.history) : Answered old u q := by
  cases h with
  | idle ht => exact .idle (hu.trans ht)
  | read ht => exact .read (hu.trans ht)
  | write ht => exact .write (hu.trans ht)

/-- A result of the access `q` made from `s`: it has a value exactly when the access was answered. -/
def Res.MakesAccess {α : Type} (s : State) (q : Option BusRequest) : Res α → Prop
  | .ok _ t => Answered s.history t q
  | .raised t => Refused s.history t q

section
variable (s : State) (a : Word) (v : Byte)

theorem busRead_makesAccess : (busRead a s).MakesAccess s (some (.read a)) := by
  rcases busRead_cases s a with ⟨-, hr⟩ | ⟨hu, hr⟩ <;> rw [hr]
  · exact .read rfl
  · exact .error (by simp [BusRequest.error, hu]) (by simp) rfl

theorem busWrite_makesAccess : (busWrite a v s).MakesAccess s (some (.write a v)) := by
  rcases busWrite_cases s a v with ⟨-, hw⟩ | ⟨hu, hw⟩ | ⟨hb, hw⟩ <;> rw [hw]
  · exact .write (by simp)
  · exact .error (by simp [BusRequest.error, hu]) (by simp) rfl
  · exact .error (by simp [BusRequest.error, hb]) (by simp) rfl

/-- The source resolver reads what its descriptor requests (R132). -/
theorem srcStep_makesAccess (src : Src) : (srcStep src s).MakesAccess s src.request := by
  cases src with
  | read8 a | read16 a | read16Hi a lo =>
    have h := busRead_makesAccess s a
    simp only [srcStep]
    generalize busRead a s = r at h
    cases r <;> exact h
  | none | val8 v | val16 v => exact .idle rfl

/-- The destination resolver writes what its descriptor requests (R134). -/
theorem dstStep_makesAccess (dst : Dst) : (dstStep dst s).MakesAccess s dst.request := by
  cases dst with
  | write8 a v | write16Hi a v =>
    have h := busWrite_makesAccess s a v
    simp only [dstStep]
    generalize busWrite a v s = r at h
    cases r <;> exact h
  | write16 a v =>
    have h := busWrite_makesAccess s a (loByte v)
    simp only [dstStep]
    generalize busWrite a (loByte v) s = r at h
    cases r <;> exact h
  | none | done => exact .idle rfl

end

/-! ## One M-cycle of each stage -/

section
variable {s t : State}

theorem fetchCycle_access (h : fetchCycle s = .next t) :
    Answered s.history t (some (.read s.pc)) ∨ Refused s.history t (some (.read s.pc)) := by
  have hq := busRead_makesAccess s s.pc
  unfold fetchCycle at h
  split at h
  · next s1 hr => rw [hr] at hq; cases h; exact .inr hq
  · next b s1 hr =>
    rw [hr] at hq
    split at h
    · cases h; exact .inl (hq.then rfl)
    · exact .inl (hq.then (decodePhase_surroundings h).history)

theorem fetchPrefixedCycle_access (h : fetchPrefixedCycle s = .next t) :
    Answered s.history t (some (.read s.pc)) ∨ Refused s.history t (some (.read s.pc)) := by
  have hq := busRead_makesAccess s s.pc
  unfold fetchPrefixedCycle at h
  split at h
  · next s1 hr => rw [hr] at hq; cases h; exact .inr hq
  · next b s1 hr => rw [hr] at hq; exact .inl (hq.then (decodePhase_surroundings h).history)

theorem readStageCycle_access {src : Src} (h : readStageCycle src s = .next t) :
    Answered s.history t src.request ∨ Refused s.history t src.request := by
  have hq := srcStep_makesAccess s src
  unfold readStageCycle at h
  split at h
  · next s1 hr => rw [hr] at hq; cases h; exact .inr hq
  · next src' s1 hr =>
    rw [hr] at hq
    split at h
    · obtain ⟨f, -, hx⟩ := executePhase_inv h
      exact .inl (hq.then (executeFamily_surroundings hx).history)
    · cases h; exact .inl (hq.then rfl)

theorem writeStageCycle_access {dst : Dst} (h : writeStageCycle dst s = .next t) :
    Answered s.history t dst.request ∨ Refused s.history t dst.request := by
  have hq := dstStep_makesAccess s dst
  unfold writeStageCycle at h
  split at h
  · next s1 hr => rw [hr] at hq; cases h; exact .inr hq
  · next dst' s1 hr => rw [hr] at hq; cases h; exact .inl (hq.then rfl)

end

/-- An M-cycle that answers a state has had the access it requests answered or refused. -/
theorem cycle_access {s t : State} (h : cycle s = .next t) :
    Answered s.history t s.busRequest ∨ Refused s.history t s.busRequest := by
  unfold cycle at h
  unfold State.busRequest
  split at h
  · next hf => cases h; rw [if_pos hf]; exact .inl (.idle rfl)
  · next hf =>
    rw [if_neg hf]
    cases hs : s.stage with
    | fetch =>
      simp only [hs] at h ⊢
      split at h
      · next hp => cases h; rw [if_pos hp]; exact .inl (.idle rfl)
      · next hp => rw [if_neg hp]; exact fetchCycle_access (s := s.tick) h
    | fetchPrefixed => simp only [hs] at h ⊢; exact fetchPrefixedCycle_access (s := s.tick) h
    | read src => simp only [hs] at h ⊢; exact readStageCycle_access (s := s.tick) h
    | wait dst => simp only [hs] at h ⊢; cases h; exact .inl (.idle rfl)
    | write dst => simp only [hs] at h ⊢; exact writeStageCycle_access (s := s.tick) h

/-- Settles O49: the access the M-cycle requests is answered, and is then the one new event, or it is refused with a fault latched; an
M-cycle that requests none leaves the history. -/
theorem cycleMakesAtMostOneAccess : Obligations.CycleMakesAtMostOneAccess := by
  intro s t h
  rcases cycle_access h with ha | hr
  · generalize s.busRequest = q at ha
    cases ha with
    | idle history => exact .inl ⟨history, .inl rfl⟩
    | read history => exact .inr (.inl ⟨_, _, rfl, history⟩)
    | write history => exact .inr (.inr ⟨_, _, rfl, history⟩)
  · generalize s.busRequest = q at hr
    cases hr with
    | error busErr latched history => exact .inl ⟨history, .inr ⟨_, rfl, busErr, latched⟩⟩

end Sys2Proof.Machine
end

section
/-! The flags (10_state.md R30, R32). Execution of a family is the only part of an M-cycle that writes F, and no family sets the carry
flag where it is clear. -/
namespace Sys2Proof.Machine

variable (s : State)

/-! ## Register writes that leave F -/

@[simp] theorem State.set8_f (n : Reg8) (v : Byte) (h : n ≠ .f) : (s.set8 n v).f = s.f := by
  cases n with
  | f => contradiction
  | _ => rfl

@[simp] theorem State.set16_f (p : Reg16) (v : Word) (h : p ≠ .af) : (s.set16 p v).f = s.f := by
  cases p with
  | af => contradiction
  | _ => rfl

@[simp] theorem slotDst_f (y : Slot) (v : Byte) : (slotDst y v s).f = s.f := by cases y <;> simp [slotDst]

/-! ## The carry flag in the three flag computations (R32) -/

@[simp] theorem xorFlags_c (r : Byte) : (xorFlags r).c = false := rfl

@[simp] theorem inc8FlagsOf_c (mode : Inc8Flags) (old : Byte) (f : Flags) : (inc8FlagsOf mode old f).c = f.c := by
  cases mode <;> rfl

@[simp] theorem bitFlags_c (n : BitNum) (v : Byte) (f : Flags) : (bitFlags n v f).c = f.c := rfl

/-! ## One M-cycle -/

@[simp] theorem sourceOf_f (fam : Family) : (sourceOf fam s).2.f = s.f := by cases fam <;> simp [sourceOf]

variable {s} {t : State}

/-- No family sets the carry flag: XOR clears it and the others keep it. -/
theorem executeFamily_carry_clear {fam : Family} {x : SrcValue} (hc : s.f.c = false)
    (h : executeFamily fam x s = some t) : t.f.c = false := by
  cases fam <;> cases x <;> simp only [executeFamily] at h <;> cases h
  case xor.byte z v => exact xorFlags_c _
  case jr.byte cc v => split <;> exact hc
  case incPair.unit p => simpa [State.add16] using hc
  case push.word p v => exact hc
  all_goals simpa using hc

/-- From `s` to `t` the flags are kept, or a family has executed on the flags of `s`. -/
def FlagsKeptOrExecuted (s t : State) : Prop :=
  t.f = s.f ∨ ∃ fam x u, u.f = s.f ∧ executeFamily fam x u = some t

/-- What comes before without writing the flags. -/
theorem FlagsKeptOrExecuted.after {u : State} (h : FlagsKeptOrExecuted u t) (hu : u.f = s.f) : FlagsKeptOrExecuted s t := by
  unfold FlagsKeptOrExecuted
  rwa [← hu]

theorem executePhase_flags {x : SrcValue} (h : executePhase x s = .next t) : FlagsKeptOrExecuted s t := by
  obtain ⟨fam, -, hx⟩ := executePhase_inv h
  exact .inr ⟨fam, x, s, rfl, hx⟩

theorem decodePhase_flags (h : decodePhase s = .next t) : FlagsKeptOrExecuted s t := by
  rcases decodePhase_inv h with ⟨-, rfl⟩ | ⟨fam, -, ⟨x, -, hx⟩ | ⟨-, rfl⟩⟩
  · exact .inl rfl
  · exact .inr ⟨fam, x, _, sourceOf_f s fam, hx⟩
  · exact .inl (sourceOf_f s fam)

theorem fetchCycle_flags (h : fetchCycle s = .next t) : FlagsKeptOrExecuted s t := by
  have hcore := busRead_core s s.pc
  unfold fetchCycle at h
  split at h
  · next s1 hr => rw [hr] at hcore; cases h; exact .inl hcore.f
  · next b s1 hr =>
    rw [hr] at hcore
    split at h
    · cases h; exact .inl hcore.f
    · exact (decodePhase_flags h).after hcore.f

theorem fetchPrefixedCycle_flags (h : fetchPrefixedCycle s = .next t) : FlagsKeptOrExecuted s t := by
  have hcore := busRead_core s s.pc
  unfold fetchPrefixedCycle at h
  split at h
  · next s1 hr => rw [hr] at hcore; cases h; exact .inl hcore.f
  · next b s1 hr => rw [hr] at hcore; exact (decodePhase_flags h).after hcore.f

theorem readStageCycle_flags {src : Src} (h : readStageCycle src s = .next t) : FlagsKeptOrExecuted s t := by
  have hcore := srcStep_core s src
  unfold readStageCycle at h
  split at h
  · next s1 hr => rw [hr] at hcore; cases h; exact .inl hcore.f
  · next src' s1 hr =>
    rw [hr] at hcore
    split at h
    · exact (executePhase_flags h).after hcore.f
    · cases h; exact .inl hcore.f

theorem writeStageCycle_f {dst : Dst} (h : writeStageCycle dst s = .next t) : t.f = s.f := by
  have hcore := dstStep_core s dst
  unfold writeStageCycle at h
  split at h <;> next hr => rw [hr] at hcore; cases h; exact hcore.f

/-- Nothing in an M-cycle but the execution of a family writes the flags. -/
theorem cycle_flags (h : cycle s = .next t) : FlagsKeptOrExecuted s t := by
  unfold cycle at h
  split at h
  · cases h; exact .inl rfl
  · split at h
    · split at h
      · cases h; exact .inl rfl
      · exact (fetchCycle_flags h).after rfl
    · exact (fetchPrefixedCycle_flags h).after rfl
    · exact (readStageCycle_flags h).after rfl
    · cases h; exact .inl rfl
    · exact .inl (writeStageCycle_f (s := s.tick) h)

theorem cycle_carry_clear (hc : s.f.c = false) (h : cycle s = .next t) : t.f.c = false := by
  rcases cycle_flags h with hf | ⟨fam, x, u, hu, hx⟩
  · rwa [hf]
  · exact executeFamily_carry_clear (by rwa [hu]) hx

/-- No M-cycle writes IME (R50). -/
theorem cycle_ime (h : cycle s = .next t) : t.ime = s.ime := by
  by_cases hf : s.flt = none
  · exact (cycle_effect hf h).2.1
  · rw [cycle_of_latched s hf] at h; cases h; rfl

/-- The carry flag and IME are both 0. -/
def State.CarryAndImeClear (s : State) : Prop := s.f.c = false ∧ s.ime = false

theorem cycle_keeps_carryAndImeClear (s t : State) (hs : s.CarryAndImeClear) (h : cycle s = .next t) :
    t.CarryAndImeClear := by
  obtain ⟨hc, hi⟩ := hs
  exact ⟨cycle_carry_clear hc h, (cycle_ime h).trans hi⟩

/-- Settles O53: every M-cycle keeps C and IME clear, and a step is M-cycles. -/
theorem carryAndImeStayClear : Obligations.CarryAndImeStayClear := by
  intro s t hc hi h
  rcases h with h | h
  · exact step_preserves State.CarryAndImeClear cycle_keeps_carryAndImeClear ⟨hc, hi⟩ h
  · exact cycle_keeps_carryAndImeClear s t ⟨hc, hi⟩ h

end Sys2Proof.Machine
end

section
/-! Who writes F and who writes SP (10_state.md R32, R54), among the shared operations the meanings are written with. -/
namespace Sys2Proof.Machine

variable (s : State)

/-! ## Data accesses -/

@[simp] theorem writeByte_f (a : Word) (v : Byte) : (writeByte a v s).f = s.f := by
  have hcore := busWrite_core (s.setStage (.write (.write8 a v))).tick a v
  unfold writeByte writeCycle
  split <;> next hw => rw [hw] at hcore; exact hcore.f

@[simp] theorem writeByte_sp (a : Word) (v : Byte) : (writeByte a v s).sp = s.sp := by
  have hcore := busWrite_core (s.setStage (.write (.write8 a v))).tick a v
  unfold writeByte writeCycle
  split <;> next hw => rw [hw] at hcore; exact hcore.sp

@[simp] theorem writeHighByte_f (a : Word) (v : Byte) : (writeHighByte a v s).f = s.f := by
  have hcore := busWrite_core (s.setStage (.write (.write16Hi a v))).tick a v
  unfold writeHighByte writeCycle
  split <;> next hw => rw [hw] at hcore; exact hcore.f

@[simp] theorem writeWord_f (a v : Word) : (writeWord a v s).f = s.f := by
  have hcore := busWrite_core (s.setStage (.write (.write16 a v))).tick a (loByte v)
  unfold writeWord writeCycle
  split
  · next hw => rw [hw] at hcore; exact (writeHighByte_f _ _ _).trans hcore.f
  · next hw => rw [hw] at hcore; exact hcore.f

/-- A read writes F only where its continuation does. -/
theorem readByteThen_f (a : Word) {k : Byte → State → State} (hk : ∀ b u, (k b u).f = u.f) :
    (readByteThen a k s).f = s.f := by
  rcases busRead_cases s a with ⟨hr, -⟩ | ⟨hu, -⟩
  · rw [readByteThen_ok s a k hr, hk]; rfl
  · rw [readByteThen_unmapped s a k hu]; rfl

/-- A read writes SP only where its continuation does. -/
theorem readByteThen_sp (a : Word) {k : Byte → State → State} (hk : ∀ b u, (k b u).sp = u.sp) :
    (readByteThen a k s).sp = s.sp := by
  rcases busRead_cases s a with ⟨hr, -⟩ | ⟨hu, -⟩
  · rw [readByteThen_ok s a k hr, hk]; rfl
  · rw [readByteThen_unmapped s a k hu]; rfl

/-! ## Operations that leave F -/

theorem loadPair_f (p : PairSel) (n : Word) : (loadPair p n s).f = s.f := by simp [loadPair]

theorem storeThrough_f (p : MemSel) : (storeThrough p s).f = s.f := by simp [storeThrough]

theorem loadThrough_f (p : MemSel) : (loadThrough p s).f = s.f :=
  (readByteThen_f _ _ fun _ _ => by simp).trans (addrR16Mem_f s p)

theorem copyRegister_f (dst src : SlotReg) : (copyRegister dst src s).f = s.f := by simp [copyRegister]

theorem loadRegister_f (dst : SlotReg) : (loadRegister dst s).f = s.f := readByteThen_f _ _ fun _ _ => by simp

theorem storeRegister_f (src : SlotReg) : (storeRegister src s).f = s.f := by simp [storeRegister]

theorem storeHighPage_f (off : Byte) (len : Word) : (storeHighPage off len s).f = s.f := by simp [storeHighPage]

theorem loadImmediate_f (dst : SlotReg) (n : Byte) : (loadImmediate dst n s).f = s.f := by simp [loadImmediate]

theorem storeImmediate_f (n : Byte) : (storeImmediate n s).f = s.f := by simp [storeImmediate]

theorem incPair_f (p : PairSel) : (incPair p s).f = s.f := by simp [incPair, State.add16]

theorem jumpRelative_f (cc : Cond) (e : Byte) : (jumpRelative cc e s).f = s.f := by unfold jumpRelative; split <;> rfl

theorem pushPair_f (p : StackSel) : (pushPair p s).f = s.f := by simp [pushPair, State.sub16]

/-! ## Operations that leave SP -/

theorem loadPair_sp (p : PairSel) (n : Word) (h : p ≠ .sp) : (loadPair p n s).sp = s.sp := by
  cases p with
  | sp => contradiction
  | _ => rfl

theorem incPair_sp (p : PairSel) (h : p ≠ .sp) : (incPair p s).sp = s.sp := by
  cases p with
  | sp => contradiction
  | _ => rfl

theorem storeThrough_sp (p : MemSel) : (storeThrough p s).sp = s.sp := by simp [storeThrough]

theorem loadThrough_sp (p : MemSel) : (loadThrough p s).sp = s.sp :=
  (readByteThen_sp _ _ fun _ _ => by simp).trans (addrR16Mem_sp s p)

theorem xorRegister_sp (r : SlotReg) : (xorRegister r s).sp = s.sp := by simp [xorRegister, xorWith]

theorem xorMemory_sp : (xorMemory s).sp = s.sp := readByteThen_sp _ _ fun _ _ => by simp [xorWith]

theorem copyRegister_sp (dst src : SlotReg) : (copyRegister dst src s).sp = s.sp := by simp [copyRegister]

theorem loadRegister_sp (dst : SlotReg) : (loadRegister dst s).sp = s.sp := readByteThen_sp _ _ fun _ _ => by simp

theorem storeRegister_sp (src : SlotReg) : (storeRegister src s).sp = s.sp := by simp [storeRegister]

theorem storeHighPage_sp (off : Byte) (len : Word) : (storeHighPage off len s).sp = s.sp := by simp [storeHighPage]

theorem loadImmediate_sp (dst : SlotReg) (n : Byte) : (loadImmediate dst n s).sp = s.sp := by simp [loadImmediate]

theorem storeImmediate_sp (n : Byte) : (storeImmediate n s).sp = s.sp := by simp [storeImmediate]

theorem incRegister_sp (r : SlotReg) : (incRegister r s).sp = s.sp := by simp [incRegister]

theorem incMemory_sp : (incMemory s).sp = s.sp := readByteThen_sp _ _ fun _ _ => by simp

theorem jumpRelative_sp (cc : Cond) (e : Byte) : (jumpRelative cc e s).sp = s.sp := by unfold jumpRelative; split <;> rfl

theorem bitRegister_sp (n : BitNum) (r : SlotReg) : (bitRegister n r s).sp = s.sp := by simp [bitRegister, bitTest]

theorem bitMemory_sp (n : BitNum) : (bitMemory n s).sp = s.sp := readByteThen_sp _ _ fun _ _ => by simp [bitTest]

/-! ## The writers, instruction by instruction -/

/-- XOR, INC r/m8 or BIT. -/
def Instr.WritesFlags (i : Instr) : Prop :=
  i = .xorHlMem ∨ (∃ r, i = Form.xorReg r) ∨ i = .incHlMem ∨ (∃ r, i = Form.incReg r) ∨ (∃ n r, i = Form.bitReg n r) ∨
    ∃ n, i = Form.bitMem n

/-- `LD SP,n16`, `INC SP` or PUSH. -/
def Instr.WritesSp (i : Instr) : Prop := (∃ n, i = .ldSpN16 n) ∨ i = .incSp ∨ ∃ p, i = Form.push p

variable {s} {t : State}

/-- What is known of the state a meaning names is known of the state `exec` answers. -/
theorem exec_answer {i : Instr} {u : State} {α : Type} {g : State → α} (h : exec i s = .next t)
    (hu : exec i s = .next u) (hg : g u = g s) : g t = g s := by
  rw [hu] at h
  cases h
  exact hg

theorem exec_keeps_flags_or_writes (i : Instr) (h : exec i s = .next t) : t.f = s.f ∨ Instr.WritesFlags i := by
  have keeps : ∀ {u}, exec i s = .next u → u.f = s.f → t.f = s.f := exec_answer h
  cases i using Instr.by_form with
  | xorHlMem => exact .inr (.inl rfl)
  | xorReg r => exact .inr (.inr (.inl ⟨r, rfl⟩))
  | incHlMem => exact .inr (.inr (.inr (.inl rfl)))
  | incReg r => exact .inr (.inr (.inr (.inr (.inl ⟨r, rfl⟩))))
  | bitReg n r => exact .inr (.inr (.inr (.inr (.inr (.inl ⟨n, r, rfl⟩)))))
  | bitMem n => exact .inr (.inr (.inr (.inr (.inr (.inr ⟨n, rfl⟩)))))
  | ldPairImm p n => exact .inl (keeps (exec_ldPairImm s p n) (loadPair_f s p n))
  | storeA p => exact .inl (keeps (exec_storeA s p) (storeThrough_f s p))
  | loadA p => exact .inl (keeps (exec_loadA s p) (loadThrough_f s p))
  | copyReg dst src => exact .inl (keeps (exec_copyReg s dst src) (copyRegister_f s dst src))
  | loadReg dst => exact .inl (keeps (exec_loadReg s dst) (loadRegister_f s dst))
  | storeReg src => exact .inl (keeps (exec_storeReg s src) (storeRegister_f s src))
  | ldhN8FromA n => exact .inl (keeps (exec_ldhN8FromA s n) (storeHighPage_f s n 2))
  | ldhCFromA => exact .inl (keeps (exec_ldhCFromA s) (storeHighPage_f s _ 1))
  | immReg dst n => exact .inl (keeps (exec_immReg s dst n) (loadImmediate_f s dst n))
  | ldHlMemN8 n => exact .inl (keeps (exec_ldHlMemN8 s n) (storeImmediate_f s n))
  | incPair p => exact .inl (keeps (exec_incPair s p) (incPair_f s p))
  | jr cc e => exact .inl (keeps (exec_jr s cc e) (jumpRelative_f s cc e))
  | push p => exact .inl (keeps (exec_push s p) (pushPair_f s p))

theorem exec_keeps_sp_or_writes (i : Instr) (h : exec i s = .next t) : t.sp = s.sp ∨ Instr.WritesSp i := by
  have keeps : ∀ {u}, exec i s = .next u → u.sp = s.sp → t.sp = s.sp := exec_answer h
  cases i using Instr.by_form with
  | ldPairImm p n =>
    by_cases hp : p = .sp
    · exact .inr (.inl ⟨n, by rw [hp]; rfl⟩)
    · exact .inl (keeps (exec_ldPairImm s p n) (loadPair_sp s p n hp))
  | incPair p =>
    by_cases hp : p = .sp
    · exact .inr (.inr (.inl (by rw [hp]; rfl)))
    · exact .inl (keeps (exec_incPair s p) (incPair_sp s p hp))
  | push p => exact .inr (.inr (.inr ⟨p, rfl⟩))
  | storeA p => exact .inl (keeps (exec_storeA s p) (storeThrough_sp s p))
  | loadA p => exact .inl (keeps (exec_loadA s p) (loadThrough_sp s p))
  | xorReg r => exact .inl (keeps (exec_xorReg s r) (xorRegister_sp s r))
  | xorHlMem => exact .inl (keeps (exec_xorHlMem s) (xorMemory_sp s))
  | copyReg dst src => exact .inl (keeps (exec_copyReg s dst src) (copyRegister_sp s dst src))
  | loadReg dst => exact .inl (keeps (exec_loadReg s dst) (loadRegister_sp s dst))
  | storeReg src => exact .inl (keeps (exec_storeReg s src) (storeRegister_sp s src))
  | ldhN8FromA n => exact .inl (keeps (exec_ldhN8FromA s n) (storeHighPage_sp s n 2))
  | ldhCFromA => exact .inl (keeps (exec_ldhCFromA s) (storeHighPage_sp s _ 1))
  | immReg dst n => exact .inl (keeps (exec_immReg s dst n) (loadImmediate_sp s dst n))
  | ldHlMemN8 n => exact .inl (keeps (exec_ldHlMemN8 s n) (storeImmediate_sp s n))
  | incReg r => exact .inl (keeps (exec_incReg s r) (incRegister_sp s r))
  | incHlMem => exact .inl (keeps (exec_incHlMem s) (incMemory_sp s))
  | jr cc e => exact .inl (keeps (exec_jr s cc e) (jumpRelative_sp s cc e))
  | bitReg n r => exact .inl (keeps (exec_bitReg s n r) (bitRegister_sp s n r))
  | bitMem n => exact .inl (keeps (exec_bitMem s n) (bitMemory_sp s n))

/-- Settles O55, form by form: the operation of every form that is not listed keeps F, or SP. -/
theorem flagAndStackPointerWriters : Obligations.FlagAndStackPointerWriters := by
  intro i s t h
  exact ⟨(exec_keeps_flags_or_writes i h).resolve_left, (exec_keeps_sp_or_writes i h).resolve_left⟩

end Sys2Proof.Machine
end

section
/-! The register file's accessors (10_state.md R22 to R30): pairs and halves, F's four bits, and pair arithmetic. -/
namespace Sys2Proof.Machine

/-! ## Bits of F and of joined bytes -/

/-- The four high bits of a byte as a number. -/
theorem toNat_and_highNibble (b : Byte) : (b &&& 0xF0).toNat = b.toNat / 16 * 16 := by
  revert b; decide +kernel

theorem and_joinBytes (hi lo hi' lo' : Byte) :
    joinBytes hi lo &&& joinBytes hi' lo' = joinBytes (hi &&& hi') (lo &&& lo') := BitVec.and_append

theorem getLsbD_joinBytes (hi lo : Byte) {i : Nat} (h : i < 8) : (joinBytes hi lo).getLsbD i = lo.getLsbD i := by
  unfold joinBytes
  rw [BitVec.getLsbD_append, if_pos h]

/-- F's bits 7 to 4 are the flags and its bits 3:0 are zero (R30). -/
theorem Flags.toByte_bits (f : Flags) :
    f.toByte.getLsbD 7 = f.z ∧ f.toByte.getLsbD 6 = f.n ∧ f.toByte.getLsbD 5 = f.h ∧ f.toByte.getLsbD 4 = f.c ∧
      f.toByte &&& 0x0F = 0 := by
  rcases f with ⟨z, n, h, c⟩
  cases z <;> cases n <;> cases h <;> cases c <;> decide

/-! ## AF, the pair that keeps its low four bits zero -/

/-- A word written to AF reads back without its bits 3:0 (R30, D17). -/
theorem State.get16_set16_af (s : State) (v : Word) : (s.set16 .af v).get16 .af = v &&& 0xFFF0 := by
  calc (s.set16 .af v).get16 .af = joinBytes (hiByte v) (loByte v &&& 0xF0) := by
        rw [← Flags.toByte_ofByte]; rfl
    _ = joinBytes (hiByte v) (loByte v) &&& joinBytes 0xFF 0xF0 := by
        rw [and_joinBytes, show hiByte v &&& 0xFF = hiByte v from BitVec.and_allOnes]
    _ = v &&& 0xFFF0 := by rw [joinBytes_halves]; rfl

/-! ## Pairs and halves -/

/-- What the low half of pair `p` holds after byte `b` was written to it: F, the low half of AF, drops bits 3:0 (R30, D17). -/
def lowStored (p : Reg16) (b : Byte) : Byte := if p = .af then b &&& 0xF0 else b

theorem lowStored_toNat (p : Reg16) (b : Byte) : (lowStored p b).toNat = if p = .af then b.toNat / 16 * 16 else b.toNat := by
  unfold lowStored
  split
  · exact toNat_and_highNibble b
  · rfl

section
variable {p : Reg16} {hi lo : Reg8} (hp : (p, hi, lo) ∈ pairsWithHalves) (s : State)
include hp

/-- The four pairs, one at a time. -/
theorem pairsWithHalves_cases :
    (p = .bc ∧ hi = .b ∧ lo = .c) ∨ (p = .de ∧ hi = .d ∧ lo = .e) ∨ (p = .hl ∧ hi = .h ∧ lo = .l) ∨
      (p = .af ∧ hi = .a ∧ lo = .f) := by
  simpa [pairsWithHalves] using hp

theorem get16_set8_halves (h l : Byte) : ((s.set8 hi h).set8 lo l).get16 p = joinBytes h (lowStored p l) := by
  rcases pairsWithHalves_cases hp with ⟨rfl, rfl, rfl⟩ | ⟨rfl, rfl, rfl⟩ | ⟨rfl, rfl, rfl⟩ | ⟨rfl, rfl, rfl⟩ <;>
    simp [State.set8, State.get16, lowStored, Flags.toByte_ofByte]

theorem get8_set16_high (v : Word) : (s.set16 p v).get8 hi = hiByte v := by
  rcases pairsWithHalves_cases hp with ⟨rfl, rfl, rfl⟩ | ⟨rfl, rfl, rfl⟩ | ⟨rfl, rfl, rfl⟩ | ⟨rfl, rfl, rfl⟩ <;> rfl

theorem get8_set16_low (v : Word) : (s.set16 p v).get8 lo = lowStored p (loByte v) := by
  rcases pairsWithHalves_cases hp with ⟨rfl, rfl, rfl⟩ | ⟨rfl, rfl, rfl⟩ | ⟨rfl, rfl, rfl⟩ | ⟨rfl, rfl, rfl⟩ <;>
    simp [State.set16, State.get8, lowStored, Flags.toByte_ofByte]

/-- A half written leaves every pair but its own (R27). -/
theorem get16_set8_other (b : Byte) {q : Reg16} (hq : q ≠ p) :
    (s.set8 hi b).get16 q = s.get16 q ∧ (s.set8 lo b).get16 q = s.get16 q := by
  rcases pairsWithHalves_cases hp with ⟨rfl, rfl, rfl⟩ | ⟨rfl, rfl, rfl⟩ | ⟨rfl, rfl, rfl⟩ | ⟨rfl, rfl, rfl⟩ <;>
    cases q <;> simp [State.set8, State.get16] at hq ⊢

theorem pairsWithHalves_high_ne_low : hi ≠ lo := by
  rcases pairsWithHalves_cases hp with ⟨-, rfl, rfl⟩ | ⟨-, rfl, rfl⟩ | ⟨-, rfl, rfl⟩ | ⟨-, rfl, rfl⟩ <;> decide

end

/-! ## The statements about the register file -/

/-- Settles O6: a pair reads its halves joined, and a half reads its part of the word. -/
theorem registerHalvesAliasTheirPair : Obligations.RegisterHalvesAliasTheirPair := by
  intro p hi lo s h l v hp
  refine ⟨?_, ?_, ?_⟩
  · rw [get16_set8_halves hp, joinBytes_toNat, lowStored, apply_ite BitVec.toNat]
  · rw [get8_set16_high hp, hiByte_toNat]
  · rw [get8_set16_low hp, lowStored_toNat, loByte_toNat]

/-- Settles O7: a half's write leaves the other pairs and the other half, a word's write the other words. -/
theorem registerWritesStaySeparate : Obligations.RegisterWritesStaySeparate := by
  intro p hi lo s b v hp
  have hne := pairsWithHalves_high_ne_low hp
  exact ⟨fun q hq => get16_set8_other hp s b hq, State.get8_set8_other s hi lo b hne.symm,
    State.get8_set8_other s lo hi b hne, fun p' q hq => State.get16_set16_other v s p' q hq⟩

/-- Settles O8: the bits of F, read in F itself and as the low half of AF. -/
theorem flagRegisterLowBitsAreZero : Obligations.FlagRegisterLowBitsAreZero := by
  intro s b v
  obtain ⟨hz, hn, hh, hc, hlow⟩ := s.f.toByte_bits
  have hbit {i : Nat} (hi : i < 8) : (s.get16 .af).getLsbD i = s.f.toByte.getLsbD i := getLsbD_joinBytes s.a s.f.toByte hi
  have hAf : s.get16 .af &&& 0x000F = 0 := by
    calc joinBytes s.a s.f.toByte &&& joinBytes 0x00 0x0F = joinBytes (s.a &&& 0x00) (s.f.toByte &&& 0x0F) := and_joinBytes ..
      _ = 0 := by rw [hlow, show s.a &&& 0x00 = 0x00 from BitVec.and_zero]; decide
  exact ⟨hz, hn, hh, hc, hlow, (hbit (by decide)).trans hz, (hbit (by decide)).trans hn, (hbit (by decide)).trans hh,
    (hbit (by decide)).trans hc, hAf, Flags.toByte_ofByte b, s.get16_set16_af v⟩

/-- Settles O9: the pair is written with the sum or the difference of `Word`s, whose arithmetic wraps. -/
theorem pairArithmeticWraps : Obligations.PairArithmeticWraps := by
  intro s p d
  refine ⟨rfl, rfl, rfl, rfl, ?_⟩
  have hadd : (s.add16 p d).2.1 = (s.set16 p (s.get16 p + d)).get16 p := rfl
  have hsub : (s.sub16 p d).2.1 = (s.set16 p (s.get16 p - d)).get16 p := rfl
  split
  · next hp =>
    subst hp
    exact ⟨hadd.trans (s.get16_set16_af _), hsub.trans (s.get16_set16_af _)⟩
  · next hp =>
    rw [hadd, hsub, State.get16_set16_same _ s p hp, State.get16_set16_same _ s p hp, BitVec.toNat_add, BitVec.toNat_sub]
    have := d.isLt
    exact ⟨rfl, by congr 1; omega⟩

/-! ## Construction -/

/-- The register file after construction with any image is that of reset, all zero. -/
theorem State.construct_get16 (image : BootImage) (mode : Inc8Flags) (p : Reg16) : (State.construct image mode).get16 p = 0 :=
  calc (State.construct image mode).get16 p = State.reset.get16 p := by cases p <;> rfl
    _ = 0 := by cases p <;> decide

theorem State.construct_get8 (image : BootImage) (mode : Inc8Flags) (n : Reg8) : (State.construct image mode).get8 n = 0 :=
  calc (State.construct image mode).get8 n = State.reset.get8 n := by cases n <;> rfl
    _ = 0 := by cases n <;> decide

/-- Settles O57: the registers and the control state as R290 lists them; the memory, and IE in it, by `State.read_construct`. -/
theorem constructionState : Obligations.ConstructionState := by
  intro image mode
  have hmem : ∀ x, (State.construct image mode).mem.read x = if h : x < 256 then image[x] else 0 :=
    fun x => State.read_construct x image mode
  exact ⟨State.construct_get16 image mode, State.construct_get8 image mode, rfl, rfl, rfl, rfl, rfl, rfl, rfl,
    (hmem 0xFFFF).trans (dif_neg (by decide)), hmem⟩

end Sys2Proof.Machine
end

section
/-! The address map (20_memory.md section 3): the region table, what the bus operations answer by it, and a read after a write. -/
namespace Sys2Proof.Machine

/-! ## The region table (R69, R77) -/

/-- The rows stand in rising order and do not overlap. -/
theorem regionTable_rising : regionTable.Pairwise fun r r' => r.last < r'.first := by decide

theorem RegionRow.holds_iff (r : RegionRow) (n : Nat) : r.holds n = true ↔ r.first ≤ n ∧ n ≤ r.last := by
  simp [RegionRow.holds]

/-- At most one row holds an address. -/
theorem regionTable_unique {r r' : RegionRow} {n : Nat} (hr : r ∈ regionTable) (hr' : r' ∈ regionTable)
    (hn : r.holds n = true) (hn' : r'.holds n = true) : r = r' := by
  have apart : regionTable.Pairwise fun r r' => ¬ (r.holds n = true ∧ r'.holds n = true) :=
    regionTable_rising.imp fun hlt ⟨hx, hy⟩ => by
      rw [RegionRow.holds_iff] at hx hy
      omega
  exact List.Pairwise.forall_of_forall_of_flip (R := fun r r' => r.holds n = true → r'.holds n = true → r = r')
    (fun _ _ _ _ => rfl) (apart.imp fun h hx hy => absurd ⟨hx, hy⟩ h) (apart.imp fun h hx hy => absurd ⟨hy, hx⟩ h)
    hr hr' hn hn'

/-- The region of an address is the owner of the row that holds it. -/
theorem regionAt_eq_some_iff (n : Nat) (o : Region) :
    regionAt n = some o ↔ ∃ r ∈ regionTable, r.holds n = true ∧ r.owner = o := by
  simp only [regionAt, Option.map_eq_some_iff]
  constructor
  · rintro ⟨r, hf, ho⟩
    exact ⟨r, List.mem_of_find?_eq_some hf, List.find?_some (p := (RegionRow.holds · n)) hf, ho⟩
  · rintro ⟨r, hr, hn, ho⟩
    obtain ⟨r', hf⟩ := Option.isSome_iff_exists.mp (List.find?_isSome (p := (RegionRow.holds · n)) |>.mpr ⟨r, hr, hn⟩)
    have hn' : r'.holds n = true := List.find?_some (p := (RegionRow.holds · n)) hf
    exact ⟨r, regionTable_unique (List.mem_of_find?_eq_some hf) hr hn' hn ▸ hf, ho⟩

theorem regionAt_eq_none_iff (n : Nat) : regionAt n = none ↔ ∀ r ∈ regionTable, ¬ r.holds n = true := by
  simp only [regionAt, Option.map_eq_none_iff, List.find?_eq_none]

/-- Settles O10: no two rows hold one address, so an owner's addresses are those of its one row, and the gaps between the rows are the
unmapped addresses. -/
theorem addressMapIsAPartition : Obligations.AddressMapIsAPartition := by
  intro a
  have ha := a.isLt
  refine ⟨fun r r' => regionTable_unique, ?_⟩
  -- The table read off row by row; the one-address rows and the gaps remain.
  simp only [regionOf, regionAt_eq_some_iff, regionAt_eq_none_iff, RegionRow.holds_iff, regionTable, List.mem_cons,
    List.not_mem_nil, or_false, exists_eq_or_imp, zero_le, true_and, and_true, reduceCtorEq, and_false, ↓existsAndEq,
    or_self, false_or, not_and, not_le, forall_eq_or_imp, forall_const, forall_eq]
  omega

theorem regionAt_eq_bootRom_iff (n : Nat) : regionAt n = some .bootRom ↔ n < 0x100 := by
  simp only [regionAt_eq_some_iff, RegionRow.holds_iff, regionTable, List.mem_cons, List.not_mem_nil, or_false,
    exists_eq_or_imp, and_true, reduceCtorEq, and_false, ↓existsAndEq, or_self]
  omega

theorem isStorage_of_bootRom {n : Nat} (h : n < 0x100) : isStorage n = true :=
  (isStorage_iff n).mpr ⟨.bootRom, (regionAt_eq_bootRom_iff n).mpr h, rfl⟩

theorem readable_of_isStorage {a : Word} (h : isStorage a.toNat = true) : Readable a := by
  obtain ⟨r, hr, -⟩ := (isStorage_iff a.toNat).mp h
  simp [Readable, regionOf, hr]

/-! ## The byte of an address, and the state after a byte is put (R70 to R76) -/

section
variable (s : State) (a : Word) (v : Byte)

theorem State.busByte_of_region {r : Region} (h : regionOf a = some r) :
    s.busByte a = if r.isDevice then Config.periphRead s.history a else s.mem.read a.toNat := by
  simp only [State.busByte, h]

theorem State.busByte_of_isStorage (h : isStorage a.toNat = true) : s.busByte a = s.mem.read a.toNat := by
  obtain ⟨r, hr, hd⟩ := (isStorage_iff a.toNat).mp h
  rw [s.busByte_of_region a hr, hd]
  rfl

theorem State.putByte_log_eq (e : BusEvent) :
    (s.putByte a v).log e = { s with mem := (s.putByte a v).mem, history := e :: s.history } := by
  apply State.eq_of_fields <;> simp

/-- A byte put at an address the bus takes is stored unless a device has it (R74). -/
theorem State.putByte_read_of_region {r : Region} (h : regionOf a = some r) (x : Nat) :
    (s.putByte a v).mem.read x = if x = a.toNat ∧ r.isDevice = false then v else s.mem.read x := by
  have hs : x = a.toNat ∧ isStorage x = true ↔ x = a.toNat ∧ r.isDevice = false :=
    and_congr_right fun hx => by rw [hx, isStorage_toNat a r h, Bool.not_eq_true']
  rw [State.putByte_read]
  exact if_congr hs rfl rfl

/-- A write that is answered went to an address that takes it. -/
theorem busWrite_inv {t : State} (h : busWrite a v s = .ok () t) : Writable a ∧ t = (s.putByte a v).log (.write a v) := by
  rcases busWrite_cases s a v with ⟨hw, e⟩ | ⟨-, e⟩ | ⟨-, e⟩ <;> rw [e] at h <;> cases h
  exact ⟨hw, rfl⟩

end

/-! ## The statements about the bus -/

/-- Settles O11: the two ends of a read. -/
theorem busReadFollowsTheTable : Obligations.BusReadFollowsTheTable := by
  intro a s
  refine ⟨busRead_unmapped s a, fun r hr => ⟨s.busByte a, busRead_ok s a (by simp [Readable, hr]), ?_⟩⟩
  exact s.busByte_of_region a hr

/-- Settles O12: the three ends of a write; the memory of the one that stores is that of `State.putByte`. -/
theorem busWriteFollowsTheTable : Obligations.BusWriteFollowsTheTable := by
  intro a v s
  refine ⟨busWrite_unmapped s a v, busWrite_bootRom s a v, fun r hr hb => ⟨(s.putByte a v).mem, ?_, ?_⟩⟩
  · rw [busWrite_ok s a v (by simp [Writable, hr, hb]), State.putByte_log_eq]
  · exact s.putByte_read_of_region a v hr

/-- Settles O13: the write that is answered is a byte put, and a storage address reads what is stored. -/
theorem readReturnsLastWrite : Obligations.ReadReturnsLastWrite := by
  intro a b v s t hw hb
  obtain ⟨-, rfl⟩ := busWrite_inv s a v hw
  have hbyte : ((s.putByte a v).log (.write a v)).busByte b = if b = a then v else s.mem.read b.toNat := by
    rw [State.busByte_of_isStorage _ b hb, State.log_mem, State.putByte_read]
    exact if_congr ⟨fun h => BitVec.eq_of_toNat_eq h.1, fun h => ⟨congrArg BitVec.toNat h, hb⟩⟩ rfl rfl
  rw [busRead_ok _ b (readable_of_isStorage hb), hbyte]
  rfl

end Sys2Proof.Machine
end

section
/-! What every M-cycle keeps of memory and of the stage (20_memory.md R70 to R77, 10_state.md R44), and that construction begins with it. -/
namespace Sys2Proof.Machine

/-! ## After construction -/

theorem State.construct_storage (image : BootImage) (mode : Inc8Flags) :
    ∀ c ∈ (State.construct image mode).mem, isStorage c.1 = true := by
  intro c hc
  have hin := Memory.mem_store [] 0 image.toList c (by simp) hc
  simp only [List.not_mem_nil, or_false, Vector.length_toList] at hin
  exact isStorage_of_bootRom (by omega)

theorem State.construct_inv (image : BootImage) (mode : Inc8Flags) : (State.construct image mode).Inv :=
  ⟨State.construct_wf image mode, State.construct_storage image mode, rfl⟩

/-- Settles O50: the boot image lies in storage, and reset is construction with the erased image. -/
theorem invariantHoldsAfterConstruction : Obligations.InvariantHoldsAfterConstruction :=
  ⟨State.reset_eq_construct ▸ State.construct_inv _ _, State.construct_inv⟩

/-! ## Memory in one M-cycle -/

variable {s t : State}

/-- An M-cycle leaves memory, or puts one byte where the bus takes it. -/
theorem cycle_mem (h : cycle s = .next t) : t.mem = s.mem ∨ ∃ a v, Writable a ∧ t.mem = (s.putByte a v).mem := by
  by_cases hf : s.flt = none
  · obtain ⟨-, -, -, ⟨hm, -⟩ | ⟨a, v, -, hm, -⟩ | ⟨a, v, hw, hm, -⟩⟩ := cycle_effect hf h
    · exact .inl hm
    · exact .inl hm
    · exact .inr ⟨a, v, hw, hm⟩
  · rw [cycle_of_latched s hf] at h
    cases h
    exact .inl rfl

theorem cycle_inc8Flags (h : cycle s = .next t) : t.inc8Flags = s.inc8Flags := by
  by_cases hf : s.flt = none
  · obtain ⟨-, -, hmode, -⟩ := cycle_effect hf h
    exact hmode
  · rw [cycle_of_latched s hf] at h
    cases h
    rfl

/-! ## The stage in one M-cycle -/

theorem slotDst_stage_wellFormed (y : Slot) (v : Byte) (u : State) : (slotDst y v u).stage.wellFormed = true := by
  cases y <;> rfl

/-- Execution leaves a boundary, an idle write, or a write that remains. -/
theorem executeFamily_stage_wellFormed {f : Family} {x : SrcValue} (h : executeFamily f x s = some t) :
    t.stage.wellFormed = true := by
  cases f <;> cases x <;> simp only [executeFamily] at h <;> cases h
  case ldSlotSlot.byte y z v => exact slotDst_stage_wellFormed y v _
  case ldSlotImm.byte y v => exact slotDst_stage_wellFormed y v _
  case incSlot.byte y v => exact slotDst_stage_wellFormed y _ _
  case jr.byte cc v => split <;> rfl
  all_goals rfl

theorem executePhase_stage_wellFormed {x : SrcValue} (h : executePhase x s = .next t) : t.stage.wellFormed = true := by
  obtain ⟨f, -, hx⟩ := executePhase_inv h
  exact executeFamily_stage_wellFormed hx

/-- A source descriptor waits in a `Read` stage only while it is not ready. -/
theorem decodePhase_stage_wellFormed (hs : s.stage.wellFormed = true) (h : decodePhase s = .next t) :
    t.stage.wellFormed = true := by
  rcases decodePhase_inv h with ⟨-, rfl⟩ | ⟨f, -, ⟨x, -, hx⟩ | ⟨hv, rfl⟩⟩
  · exact hs
  · exact executeFamily_stage_wellFormed hx
  · simp [Stage.wellFormed, hv]

theorem fetchCycle_stage_wellFormed (hs : s.stage.wellFormed = true) (h : fetchCycle s = .next t) :
    t.stage.wellFormed = true := by
  have hkept : (busRead s.pc s).state.stage.wellFormed = true := by rwa [(busRead_core s s.pc).stage]
  unfold fetchCycle at h
  split at h
  · next s1 hr => rw [hr] at hkept; cases h; exact hkept
  · next b s1 hr =>
    rw [hr] at hkept
    split at h
    · cases h; rfl
    · exact decodePhase_stage_wellFormed (s := s1.latch b false) hkept h

theorem fetchPrefixedCycle_stage_wellFormed (hs : s.stage.wellFormed = true) (h : fetchPrefixedCycle s = .next t) :
    t.stage.wellFormed = true := by
  have hkept : (busRead s.pc s).state.stage.wellFormed = true := by rwa [(busRead_core s s.pc).stage]
  unfold fetchPrefixedCycle at h
  split at h
  · next s1 hr => rw [hr] at hkept; cases h; exact hkept
  · next b s1 hr => rw [hr] at hkept; exact decodePhase_stage_wellFormed (s := s1.latch b true) hkept h

theorem readStageCycle_stage_wellFormed {src : Src} (hs : s.stage.wellFormed = true)
    (h : readStageCycle src s = .next t) : t.stage.wellFormed = true := by
  have hkept : (srcStep src s).state.stage.wellFormed = true := by rwa [(srcStep_core s src).stage]
  unfold readStageCycle at h
  split at h
  · next s1 hr => rw [hr] at hkept; cases h; exact hkept
  · next src' s1 hr =>
    split at h
    · exact executePhase_stage_wellFormed h
    · next hv => cases h; simp [Stage.wellFormed, hv]

theorem writeStageCycle_stage_wellFormed {dst : Dst} (hs : s.stage.wellFormed = true)
    (h : writeStageCycle dst s = .next t) : t.stage.wellFormed = true := by
  have hkept : (dstStep dst s).state.stage.wellFormed = true := by rwa [(dstStep_core s dst).stage]
  unfold writeStageCycle at h
  split at h
  · next s1 hr => rw [hr] at hkept; cases h; exact hkept
  · next dst' s1 hr =>
    cases h
    cases hd : dst'.isDone <;> simp [Stage.wellFormed, hd]

theorem cycle_stage_wellFormed (hs : s.stage.wellFormed = true) (h : cycle s = .next t) :
    t.stage.wellFormed = true := by
  unfold cycle at h
  split at h
  · cases h; exact hs
  · split at h
    · split at h
      · cases h; exact hs
      · exact fetchCycle_stage_wellFormed (s := s.tick) hs h
    · exact fetchPrefixedCycle_stage_wellFormed (s := s.tick) hs h
    · exact readStageCycle_stage_wellFormed (s := s.tick) hs h
    · next dst hst =>
      cases h
      rw [hst] at hs
      -- What waits is not done, so it is a write that remains.
      simp only [Stage.wellFormed, State.setStage_stage] at hs ⊢
      rw [hs, Bool.true_or]
    · exact writeStageCycle_stage_wellFormed (s := s.tick) hs h

/-! ## The invariant -/

theorem cycle_keeps_inv (s t : State) (hs : s.Inv) (h : cycle s = .next t) : t.Inv := by
  obtain ⟨hwf, hst, hstage⟩ := hs
  have hstage' := cycle_stage_wellFormed hstage h
  rcases cycle_mem h with hm | ⟨a, v, -, hm⟩
  · exact ⟨hm ▸ hwf, hm ▸ hst, hstage'⟩
  · exact ⟨hm ▸ s.putByte_wf a v hwf, hm ▸ s.putByte_storage a v hst, hstage'⟩

/-- Settles O51: every M-cycle keeps the invariant, and a step is M-cycles. -/
theorem invariantIsKept : Obligations.InvariantIsKept :=
  fun s t hs => ⟨step_preserves State.Inv cycle_keeps_inv hs, cycle_keeps_inv s t hs⟩

/-! ## The boot ROM and the parameters -/

/-- What the bus can write is not in the boot ROM (R71). -/
theorem State.putByte_read_bootRom (s : State) {a : Word} {v : Byte} (hw : Writable a) {x : Nat} (hx : x < 0x100) :
    (s.putByte a v).mem.read x = s.mem.read x := by
  rw [State.putByte_read, if_neg]
  rintro ⟨rfl, -⟩
  exact hw.2 ((regionAt_eq_bootRom_iff _).mpr hx)

/-- The boot ROM, IME and INC8_FLAGS are in `t` as in `s`. -/
structure KeepsBootRomAndParameters (s t : State) : Prop where
  bootRom : ∀ x, x < 0x100 → t.mem.read x = s.mem.read x
  ime : t.ime = s.ime
  inc8Flags : t.inc8Flags = s.inc8Flags

theorem KeepsBootRomAndParameters.refl (s : State) : KeepsBootRomAndParameters s s := ⟨fun _ _ => rfl, rfl, rfl⟩

theorem KeepsBootRomAndParameters.trans {u : State} (h : KeepsBootRomAndParameters s t)
    (h' : KeepsBootRomAndParameters t u) : KeepsBootRomAndParameters s u :=
  ⟨fun x hx => (h'.bootRom x hx).trans (h.bootRom x hx), h'.ime.trans h.ime, h'.inc8Flags.trans h.inc8Flags⟩

theorem cycle_keepsBootRomAndParameters (h : cycle s = .next t) : KeepsBootRomAndParameters s t := by
  refine ⟨fun x hx => ?_, cycle_ime h, cycle_inc8Flags h⟩
  rcases cycle_mem h with hm | ⟨a, v, hw, hm⟩ <;> rw [hm]
  exact s.putByte_read_bootRom hw hx

/-- Settles O54: every M-cycle keeps them, and a step is M-cycles. -/
theorem bootRomAndParametersNeverChange : Obligations.BootRomAndParametersNeverChange := by
  intro s t h
  have hkeeps : KeepsBootRomAndParameters s t := by
    rcases h with h | h
    · exact step_preserves (KeepsBootRomAndParameters s) (fun _ _ hu hc => hu.trans (cycle_keepsBootRomAndParameters hc))
        (.refl s) h
    · exact cycle_keepsBootRomAndParameters h
  exact ⟨hkeeps.bootRom, hkeeps.ime, hkeeps.inc8Flags⟩

end Sys2Proof.Machine
end

section
/-! Which instructions can meet the boot ROM with a store (60_exceptions.md R269): the others latch nothing, or `UnmappedAddress`. -/
namespace Sys2Proof.Machine

/-- FLT is as it was, or holds an `UnmappedAddress`. -/
def FltKeptOrUnmapped (s t : State) : Prop := t.flt = s.flt ∨ ∃ a w pc, t.flt = some (.unmappedAddress a w pc)

variable (s : State)

/-! ## Data accesses -/

/-- A read latches what its continuation does, or `UnmappedAddress`. -/
theorem readByteThen_flt (a : Word) {k : Byte → State → State} (hk : ∀ b u, (k b u).flt = u.flt) :
    FltKeptOrUnmapped s (readByteThen a k s) := by
  rcases busRead_cases s a with ⟨hr, -⟩ | ⟨hu, -⟩
  · rw [readByteThen_ok s a k hr]; exact .inl (hk _ _)
  · rw [readByteThen_unmapped s a k hu]; exact .inr ⟨_, _, _, rfl⟩

/-- The high page holds no byte of the boot ROM (20_memory.md R79). -/
theorem highPage_ne_bootRom (n : Byte) : regionOf (highPage n) ≠ some .bootRom := by
  have hn : (highPage n).toNat = 0xFF * 256 + n.toNat := joinBytes_toNat 0xFF n
  rw [regionOf, Ne, regionAt_eq_bootRom_iff]
  omega

theorem storeHighPage_flt (off : Byte) (len : Word) : FltKeptOrUnmapped s (storeHighPage off len s) := by
  rw [storeHighPage]
  by_cases hu : regionOf (highPage off) = none
  · rw [writeByte_unmapped _ _ _ hu]; exact .inr ⟨_, _, _, rfl⟩
  · rw [writeByte_ok _ _ _ ⟨hu, highPage_ne_bootRom off⟩]; exact .inl (by simp)

/-! ## The operations that are no store -/

theorem loadPair_flt (p : PairSel) (n : Word) : (loadPair p n s).flt = s.flt := by simp [loadPair]

theorem xorWith_flt (v : Byte) : (xorWith v s).flt = s.flt := by simp [xorWith]

theorem copyRegister_flt (dst src : SlotReg) : (copyRegister dst src s).flt = s.flt := by simp [copyRegister]

theorem loadImmediate_flt (dst : SlotReg) (n : Byte) : (loadImmediate dst n s).flt = s.flt := by simp [loadImmediate]

theorem incRegister_flt (r : SlotReg) : (incRegister r s).flt = s.flt := by simp [incRegister]

theorem incPair_flt (p : PairSel) : (incPair p s).flt = s.flt := by simp [incPair, State.add16]

theorem jumpRelative_flt (cc : Cond) (e : Byte) : (jumpRelative cc e s).flt = s.flt := by
  unfold jumpRelative; split <;> rfl

theorem bitTest_flt (n : BitNum) (v : Byte) : (bitTest n v s).flt = s.flt := rfl

theorem loadThrough_flt (p : MemSel) : FltKeptOrUnmapped s (loadThrough p s) := by
  have h : FltKeptOrUnmapped (addrR16Mem p s).2 (loadThrough p s) := readByteThen_flt _ _ fun _ _ => by simp
  rwa [FltKeptOrUnmapped, addrR16Mem_flt] at h

theorem loadRegister_flt (dst : SlotReg) : FltKeptOrUnmapped s (loadRegister dst s) := readByteThen_flt _ _ fun _ _ => by simp

theorem xorMemory_flt : FltKeptOrUnmapped s (xorMemory s) := readByteThen_flt _ _ fun b u => xorWith_flt u b

theorem bitMemory_flt (n : BitNum) : FltKeptOrUnmapped s (bitMemory n s) := readByteThen_flt _ _ fun b u => bitTest_flt u n b

/-! ## Instruction by instruction -/

/-- The stores whose address can be any (R269): `LD [r16(±)],A`, `LD [HL],r8`, `LD [HL],n8`, `INC [HL]` and PUSH. -/
def Instr.StoresAnywhere (i : Instr) : Prop :=
  (∃ m, i = Form.storeA m) ∨ (∃ r, i = Form.storeReg r) ∨ (∃ n, i = .ldHlMemN8 n) ∨ i = .incHlMem ∨ ∃ p, i = Form.push p

variable {s} {t : State}

theorem exec_fltKeptOrUnmapped_or_stores (i : Instr) (h : exec i s = .next t) :
    FltKeptOrUnmapped s t ∨ Instr.StoresAnywhere i := by
  have answers : ∀ {u}, exec i s = .next u → FltKeptOrUnmapped s u → FltKeptOrUnmapped s t := fun hu hk => by
    rw [hu] at h; cases h; exact hk
  cases i using Instr.by_form with
  | storeA m => exact .inr (.inl ⟨m, rfl⟩)
  | storeReg r => exact .inr (.inr (.inl ⟨r, rfl⟩))
  | ldHlMemN8 n => exact .inr (.inr (.inr (.inl ⟨n, rfl⟩)))
  | incHlMem => exact .inr (.inr (.inr (.inr (.inl rfl))))
  | push p => exact .inr (.inr (.inr (.inr (.inr ⟨p, rfl⟩))))
  | ldPairImm p n => exact .inl (answers (exec_ldPairImm s p n) (.inl (loadPair_flt s p n)))
  | loadA p => exact .inl (answers (exec_loadA s p) (loadThrough_flt s p))
  | xorReg r => exact .inl (answers (exec_xorReg s r) (.inl (xorWith_flt s _)))
  | xorHlMem => exact .inl (answers (exec_xorHlMem s) (xorMemory_flt s))
  | copyReg dst src => exact .inl (answers (exec_copyReg s dst src) (.inl (copyRegister_flt s dst src)))
  | loadReg dst => exact .inl (answers (exec_loadReg s dst) (loadRegister_flt s dst))
  | ldhN8FromA n => exact .inl (answers (exec_ldhN8FromA s n) (storeHighPage_flt s n 2))
  | ldhCFromA => exact .inl (answers (exec_ldhCFromA s) (storeHighPage_flt s _ 1))
  | immReg dst n => exact .inl (answers (exec_immReg s dst n) (.inl (loadImmediate_flt s dst n)))
  | incReg r => exact .inl (answers (exec_incReg s r) (.inl (incRegister_flt s r)))
  | incPair p => exact .inl (answers (exec_incPair s p) (.inl (incPair_flt s p)))
  | jr cc e => exact .inl (answers (exec_jr s cc e) (.inl (jumpRelative_flt s cc e)))
  | bitReg n r => exact .inl (answers (exec_bitReg s n r) (.inl (bitTest_flt s n _)))
  | bitMem n => exact .inl (answers (exec_bitMem s n) (bitMemory_flt s n))

/-- Settles O43: an instruction that is no such store leaves FLT empty or latches another kind of fault. -/
theorem onlyDataStoresRaiseBootRomWrite : Obligations.OnlyDataStoresRaiseBootRomWrite := by
  intro i s t a pc hf h ht
  refine (exec_fltKeptOrUnmapped_or_stores i h).resolve_left ?_
  rintro (hk | ⟨a', w, pc', hu⟩)
  · rw [hk, hf] at ht; cases ht
  · rw [hu] at ht; cases ht

end Sys2Proof.Machine
end

section
/-! Decoding and encoding (30_encoding.md): the opcode byte each family's fields make, the bytes a family takes (R100, R104, R114), that
decoder and encoder agree on them, and what the patterns take (R102, R115). -/
namespace Sys2Proof

open Machine

/-! ## Opcode bytes from their fields (R101, R104) -/

/-- Bits 5:4 of `LD r16,n16` and `INC r16` (R113). -/
def PairSel.bits : PairSel → BitVec 2
  | .bc => 0
  | .de => 1
  | .hl => 2
  | .sp => 3

/-- Bits 5:4 of the `[r16(±)]` forms (R113). -/
def MemSel.bits : MemSel → BitVec 2
  | .bc => 0
  | .de => 1
  | .hlInc => 2
  | .hlDec => 3

/-- Bits 5:4 of `PUSH r16` (R113). -/
def StackSel.bits : StackSel → BitVec 2
  | .bc => 0
  | .de => 1
  | .hl => 2
  | .af => 3

/-- Bits 4:3 of `JR cc,e8` (R112). -/
def Cond.bits : Cond → BitVec 2
  | .nz => 0
  | .z => 1
  | .nc => 2
  | .c => 3

/-- The slot value (R110). -/
def Slot.bits : Slot → BitVec 3
  | .reg .b => 0
  | .reg .c => 1
  | .reg .d => 2
  | .reg .e => 3
  | .reg .h => 4
  | .reg .l => 5
  | .mem => 6
  | .reg .a => 7

/-- The opcode byte of a family, its fields in the places the layout column of R104 gives them. -/
def Family.opcode : Family → Byte
  | .ldPairImm p => 0b00#2 ++ p.bits ++ 0b0001#4
  | .ldMemA p => 0b00#2 ++ p.bits ++ 0b0010#4
  | .ldAMem p => 0b00#2 ++ p.bits ++ 0b1010#4
  | .xor z => 0b10101#5 ++ z.bits
  | .ldSlotSlot y z => 0b01#2 ++ y.bits ++ z.bits
  | .ldhImmA => 0b11100000
  | .ldhCA => 0b11100010
  | .ldSlotImm y => 0b00#2 ++ y.bits ++ 0b110#3
  | .incSlot y => 0b00#2 ++ y.bits ++ 0b100#3
  | .incPair p => 0b00#2 ++ p.bits ++ 0b0011#4
  | .jr cc => 0b001#3 ++ cc.bits ++ 0b000#3
  | .push p => 0b11#2 ++ p.bits ++ 0b0101#4
  | .bit n z => 0b01#2 ++ BitVec.ofNat 3 n.toNat ++ z.bits

/-- Is the family of the table the byte 0xCB selects (R103)? -/
def Family.prefixed : Family → Bool
  | .bit _ _ => true
  | _ => false

/-- The bytes that select a family: 0xCB where its table needs it, and the opcode byte (R100). -/
def Family.opcodeBytes (f : Family) : List Byte := if f.prefixed then [0xCB, f.opcode] else [f.opcode]

/-- The eight slot values. -/
theorem Slot.by_value {P : Slot → Prop} (b : P (.reg .b)) (c : P (.reg .c)) (d : P (.reg .d)) (e : P (.reg .e))
    (h : P (.reg .h)) (l : P (.reg .l)) (mem : P .mem) (a : P (.reg .a)) : ∀ z, P z
  | .reg .b => b
  | .reg .c => c
  | .reg .d => d
  | .reg .e => e
  | .reg .h => h
  | .reg .l => l
  | .mem => mem
  | .reg .a => a

/-- The patterns read back the fields an opcode byte is made of; `[HL]` to `[HL]`, which is no instruction, would be 0x76 (R116). -/
theorem familyOf_opcode {f : Family} {lo hi : Byte} {i : Instr} (h : instrOf f lo hi = some i) :
    familyOf f.prefixed f.opcode = some f := by
  cases f with
  | ldPairImm p => cases p <;> rfl
  | ldMemA p => cases p <;> rfl
  | ldAMem p => cases p <;> rfl
  | xor z => cases z using Slot.by_value <;> rfl
  | ldSlotSlot y z => cases y using Slot.by_value <;> cases z using Slot.by_value <;> cases h <;> rfl
  | ldhImmA => rfl
  | ldhCA => rfl
  | ldSlotImm y => cases y using Slot.by_value <;> rfl
  | incSlot y => cases y using Slot.by_value <;> rfl
  | incPair p => cases p <;> rfl
  | jr cc => cases cc <;> rfl
  | push p => cases p <;> rfl
  | bit n z => cases n <;> cases z using Slot.by_value <;> rfl

/-- A byte a pattern takes is the opcode byte of its family: no bit of it is ignored. -/
theorem opcode_of_familyOf {table : Bool} {b : Byte} {f : Family} (h : familyOf table b = some f) :
    f.prefixed = table ∧ f.opcode = b := by
  have hall : ∀ table, ∀ b : Byte, (familyOf table b).all (fun f => f.prefixed == table && f.opcode == b) = true := by
    decide +kernel
  have hb := hall table b
  rw [h] at hb
  simpa using hb

/-! ## What a family makes of its immediate bytes (R114) -/

/-- The family with these immediate bytes, exactly as many as it has, is the instruction. -/
def Family.Makes (f : Family) (imm : List Byte) (i : Instr) : Prop :=
  imm.length = f.immBytes ∧ instrOf f (imm.headD 0) (imm.tail.headD 0) = some i

theorem Family.Makes.familyOf_opcode {f : Family} {imm : List Byte} {i : Instr} (h : f.Makes imm i) :
    familyOf f.prefixed f.opcode = some f := Sys2Proof.familyOf_opcode h.2

/-- Every instruction is made by a family. -/
theorem exists_family_makes (i : Instr) : ∃ f imm, Family.Makes f imm i := by
  cases i using Instr.by_form with
  | ldPairImm p n => exact ⟨.ldPairImm p, [loByte n, hiByte n], rfl, by simp [instrOf]⟩
  | storeA p => exact ⟨.ldMemA p, [], rfl, rfl⟩
  | loadA p => exact ⟨.ldAMem p, [], rfl, rfl⟩
  | xorReg r => exact ⟨.xor (.reg r), [], rfl, rfl⟩
  | xorHlMem => exact ⟨.xor .mem, [], rfl, rfl⟩
  | copyReg dst src => exact ⟨.ldSlotSlot (.reg dst) (.reg src), [], rfl, rfl⟩
  | loadReg dst => exact ⟨.ldSlotSlot (.reg dst) .mem, [], rfl, rfl⟩
  | storeReg src => exact ⟨.ldSlotSlot .mem (.reg src), [], rfl, rfl⟩
  | ldhN8FromA n => exact ⟨.ldhImmA, [n], rfl, rfl⟩
  | ldhCFromA => exact ⟨.ldhCA, [], rfl, rfl⟩
  | immReg dst n => exact ⟨.ldSlotImm (.reg dst), [n], rfl, rfl⟩
  | ldHlMemN8 n => exact ⟨.ldSlotImm .mem, [n], rfl, rfl⟩
  | incReg r => exact ⟨.incSlot (.reg r), [], rfl, rfl⟩
  | incHlMem => exact ⟨.incSlot .mem, [], rfl, rfl⟩
  | incPair p => exact ⟨.incPair p, [], rfl, rfl⟩
  | jr cc e => exact ⟨.jr cc, [e], rfl, rfl⟩
  | push p => exact ⟨.push p, [], rfl, rfl⟩
  | bitReg n r => exact ⟨.bit n (.reg r), [], rfl, rfl⟩
  | bitMem n => exact ⟨.bit n .mem, [], rfl, rfl⟩

/-! ## The encoder, family by family -/

theorem encode_ldPairImm (p : PairSel) (n : Word) :
    encode (Form.ldPairImm p n) = [(Family.ldPairImm p).opcode, loByte n, hiByte n] := by cases p <;> rfl

/-- The encoder's row of an instruction is its family's opcode bytes, and as many of its immediates as the family has. -/
theorem encode_of_instrOf {f : Family} {lo hi : Byte} {i : Instr} (h : instrOf f lo hi = some i) :
    encode i = f.opcodeBytes ++ [lo, hi].take f.immBytes := by
  cases f with
  | ldPairImm p => cases h; rw [encode_ldPairImm, loByte_joinBytes, hiByte_joinBytes]; rfl
  | ldMemA p => cases h; cases p <;> rfl
  | ldAMem p => cases h; cases p <;> rfl
  | xor z => cases z using Slot.by_value <;> cases h <;> rfl
  | ldSlotSlot y z => cases y using Slot.by_value <;> cases z using Slot.by_value <;> cases h <;> rfl
  | ldhImmA => cases h; rfl
  | ldhCA => cases h; rfl
  | ldSlotImm y => cases y using Slot.by_value <;> cases h <;> rfl
  | incSlot y => cases y using Slot.by_value <;> cases h <;> rfl
  | incPair p => cases h; cases p <;> rfl
  | jr cc => cases h; cases cc <;> rfl
  | push p => cases h; cases p <;> rfl
  | bit n z => cases n <;> cases z using Slot.by_value <;> cases h <;> rfl

theorem Family.Makes.encode_eq {f : Family} {imm : List Byte} {i : Instr} (h : f.Makes imm i) :
    encode i = f.opcodeBytes ++ imm := by
  obtain ⟨hlen, hi⟩ := h
  have himm : [imm.headD 0, imm.tail.headD 0].take imm.length = imm := by
    match imm, hlen ▸ immBytes_cases f with
    | [], _ => rfl
    | [_], _ => rfl
    | [_, _], _ => rfl
    | _ :: _ :: _ :: _, h => simp at h
  rw [encode_of_instrOf hi, ← hlen, himm]

/-! ## The decoder -/

theorem decodeOpcode_finish_eq_ok_iff {table : Bool} {b lo hi : Byte} {f : Family} {bytes rest : List Byte} {i : Instr} :
    decodeOpcode.finish table b f lo hi bytes = .ok (i, rest) ↔ instrOf f lo hi = some i ∧ bytes = rest := by
  unfold decodeOpcode.finish
  split <;> simp_all

/-- The bytes after an opcode byte decode exactly when a family takes it and they begin with immediates it makes the instruction of. -/
theorem decodeOpcode_eq_ok_iff {table : Bool} {b : Byte} {bytes rest : List Byte} {i : Instr} :
    decodeOpcode table b bytes = .ok (i, rest) ↔
      ∃ f imm, familyOf table b = some f ∧ Family.Makes f imm i ∧ bytes = imm ++ rest := by
  cases hfam : familyOf table b with
  | none => simp [decodeOpcode, hfam]
  | some f =>
    have key : decodeOpcode table b bytes = .ok (i, rest) ↔ ∃ imm, Family.Makes f imm i ∧ bytes = imm ++ rest := by
      unfold decodeOpcode Family.Makes
      rw [hfam]
      rcases immBytes_cases f with hn | hn | hn
      · simp [hn, decodeOpcode_finish_eq_ok_iff]
      · rcases bytes with _ | ⟨n, bytes⟩ <;>
          simp [hn, decodeOpcode_finish_eq_ok_iff, List.length_eq_one_iff]
      · rcases bytes with _ | ⟨lo, _ | ⟨hi, bytes⟩⟩ <;>
          simp [hn, decodeOpcode_finish_eq_ok_iff, List.length_eq_two]
    simp [key]

theorem decode_unprefixed {b : Byte} (hb : b ≠ 0xCB) (bytes : List Byte) :
    decode (b :: bytes) = decodeOpcode false b bytes := if_neg hb

theorem decode_prefixed (b : Byte) (bytes : List Byte) : decode (0xCB :: b :: bytes) = decodeOpcode true b bytes := rfl

/-- 0xCB itself is taken by no unprefixed pattern, so it is never read as an opcode byte (R103). -/
theorem decode_opcodeBytes {f : Family} (hf : familyOf f.prefixed f.opcode = some f) (bytes : List Byte) :
    decode (f.opcodeBytes ++ bytes) = decodeOpcode f.prefixed f.opcode bytes := by
  unfold Family.opcodeBytes
  cases hp : f.prefixed with
  | true => exact decode_prefixed _ _
  | false =>
    have hne : f.opcode ≠ 0xCB := fun hb => by rw [hp, hb] at hf; cases hf
    exact decode_unprefixed hne bytes

/-- What a byte list decodes to: a family makes it, and the list is that family's bytes, its immediates and the rest. -/
theorem decode_eq_ok_iff {bytes rest : List Byte} {i : Instr} :
    decode bytes = .ok (i, rest) ↔ ∃ f imm, Family.Makes f imm i ∧ bytes = f.opcodeBytes ++ imm ++ rest := by
  constructor
  · intro h
    have layout : ∀ {table b tail}, decodeOpcode table b tail = .ok (i, rest) →
        ∃ f imm, Family.Makes f imm i ∧ (if table then [0xCB, b] else [b]) ++ tail = f.opcodeBytes ++ imm ++ rest := by
      intro table b tail h
      obtain ⟨f, imm, hfam, hmakes, rfl⟩ := decodeOpcode_eq_ok_iff.mp h
      obtain ⟨rfl, rfl⟩ := opcode_of_familyOf hfam
      exact ⟨f, imm, hmakes, (List.append_assoc ..).symm⟩
    match bytes with
    | [] => cases h
    | b :: tail =>
      by_cases hb : b = 0xCB
      · subst hb
        match tail with
        | [] => cases h
        | b2 :: tail => exact layout (decode_prefixed b2 tail ▸ h)
      · exact layout (decode_unprefixed hb tail ▸ h)
  · rintro ⟨f, imm, hmakes, rfl⟩
    rw [List.append_assoc, decode_opcodeBytes hmakes.familyOf_opcode]
    exact decodeOpcode_eq_ok_iff.mpr ⟨f, imm, hmakes.familyOf_opcode, hmakes, rfl⟩

/-- Settles O2: a family makes the instruction of some immediates, and decoder and encoder both read and write that family's bytes. -/
theorem decodeEncodeRoundTrip : Obligations.DecodeEncodeRoundTrip := by
  intro i rest _
  obtain ⟨f, imm, hmakes⟩ := exists_family_makes i
  exact decode_eq_ok_iff.mpr ⟨f, imm, hmakes, by rw [hmakes.encode_eq]⟩

/-- Settles O3: the bytes of a decoded instruction are its family's bytes and immediates, which are what the encoder writes. -/
theorem encodeDecodeRoundTrip : Obligations.EncodeDecodeRoundTrip := by
  intro bytes rest i h
  obtain ⟨f, imm, hmakes, rfl⟩ := decode_eq_ok_iff.mp h
  rw [hmakes.encode_eq]

/-! ## Words and bytes of the tables -/

/-- Settles O1: the decoder run on each word. -/
theorem decodeReadsSpecWords : Obligations.DecodeReadsSpecWords := by
  unfold Obligations.DecodeReadsSpecWords
  and_intros <;> decide

/-! ## The patterns (R102) -/

/-- Two patterns that take one byte agree on the bits both masks keep. -/
theorem Pattern.values_agree {p q : Pattern} {b : Byte} (hp : p.takes b = true) (hq : q.takes b = true) :
    p.value &&& q.mask = q.value &&& p.mask := by
  simp only [Pattern.takes, Bool.and_eq_true, beq_iff_eq] at hp hq
  rw [← hp.1, ← hq.1, BitVec.and_assoc, BitVec.and_assoc, BitVec.and_comm p.mask]

/-- No byte is taken by both. -/
def Pattern.Disjoint (p q : Pattern) : Prop := ∀ b : Byte, ¬ (p.takes b = true ∧ q.takes b = true)

theorem Pattern.disjoint_symm : Std.Symm Pattern.Disjoint := ⟨fun _ _ h b hb => h b hb.symm⟩

/-- Any two of the twelve patterns want different values in bits both masks keep. -/
theorem unprefixedPatterns_pairwise_disjoint : unprefixedPatterns.Pairwise Pattern.Disjoint := by
  have hvalues : unprefixedPatterns.Pairwise (fun p q => p.value &&& q.mask ≠ q.value &&& p.mask) := by decide
  exact hvalues.imp fun hne _ hb => hne (Pattern.values_agree hb.1 hb.2)

theorem unprefixedPatterns_unique {p q : Pattern} {b : Byte} (hp : p ∈ unprefixedPatterns) (hq : q ∈ unprefixedPatterns)
    (hpb : p.takes b = true) (hqb : q.takes b = true) : p = q := by
  have := Pattern.disjoint_symm
  by_contra hne
  exact unprefixedPatterns_pairwise_disjoint.forall hp hq hne b ⟨hpb, hqb⟩

theorem familyOf_of_takes {p : Pattern} {b : Byte} (hp : p ∈ unprefixedPatterns) (hpb : p.takes b = true) :
    familyOf false b = some (p.family b) := by
  obtain ⟨q, hfind⟩ : ∃ q, unprefixedPatterns.find? (·.takes b) = some q :=
    Option.isSome_iff_exists.mp (List.find?_isSome.mpr ⟨p, hp, hpb⟩)
  have hqb : q.takes b = true := by simpa using List.find?_some hfind
  have hqp : q = p := unprefixedPatterns_unique (List.mem_of_find?_eq_some hfind) hp hqb hpb
  exact congrArg (Option.map (·.family b)) (hqp ▸ hfind)

/-- Settles O4: at most one pattern takes a byte, so the first that does is any that does. -/
theorem patternOrderIsUnobservable : Obligations.PatternOrderIsUnobservable :=
  ⟨rfl, unprefixedPatterns_pairwise_disjoint, fun _ => rfl, fun _ _ hp hpb => familyOf_of_takes hp hpb⟩

/-! ## Bytes no pattern takes (R115) -/

theorem familyOf_unprefixed_eq_none_iff :
    ∀ b : Byte, b ≠ 0xCB → (familyOf false b = none ↔ listedUnimplemented b) := by
  unfold listedUnimplemented
  decide +kernel

/-- The only prefixed pattern keeps bits 7:6 and wants them 01. -/
theorem familyOf_prefixed_eq_none_iff (b : Byte) : familyOf true b = none ↔ b.toNat < 0x40 ∨ 0x80 ≤ b.toNat := by
  revert b
  decide +kernel

/-- Settles O5, by the two tables. -/
theorem unimplementedBytesAreListed : Obligations.UnimplementedBytesAreListed :=
  ⟨familyOf_unprefixed_eq_none_iff, familyOf_prefixed_eq_none_iff⟩

end Sys2Proof
end

section
/-! Latches that agree with the stage (40_stage_machine.md R142, R149): decoding forms no source but its family's, so no M-cycle
from such a state stops the model, and none leaves a `Read` stage its family does not form. -/
namespace Sys2Proof.Machine

/-- The model does not stop, and the state it answers has latches that agree with its stage. -/
def AnswersAgreeing (o : Host.Outcome State Fault Refusal) : Prop := ∃ t, o = .next t ∧ t.latchesAgree = true

section
variable {s t : State}

theorem latchesAgree_of_ne_read (h : ∀ src, s.stage ≠ .read src) : s.latchesAgree = true := by
  unfold State.latchesAgree
  split
  · next src hs => exact absurd hs (h src)
  · rfl

theorem latchesAgree_of_fetch (h : s.stage = .fetch) : s.latchesAgree = true :=
  latchesAgree_of_ne_read fun src hs => by rw [h] at hs; cases hs

theorem latchesAgree_read {src : Src} (hs : s.stage = .read src) :
    s.latchesAgree = true ↔ ∃ f, familyOf s.pfx s.opc = some f ∧ familyForms f src = true := by
  simp only [State.latchesAgree, hs]
  cases familyOf s.pfx s.opc <;> simp

/-- Agreement is a matter of the stage and the latches alone. -/
theorem latchesAgree_congr (hs : t.stage = s.stage) (ho : t.opc = s.opc) (hp : t.pfx = s.pfx) :
    t.latchesAgree = s.latchesAgree := by
  simp only [State.latchesAgree, hs, ho, hp]

/-! ## Decode and execute -/

theorem slotDst_ne_read (y : Slot) (v : Byte) (u : State) (src : Src) : (slotDst y v u).stage ≠ .read src := by
  cases y <;> simp [slotDst]

/-- No family reads after it has executed. -/
theorem executeFamily_ne_read {f : Family} {x : SrcValue} (h : executeFamily f x s = some t) (src : Src) :
    t.stage ≠ .read src := by
  cases f <;> cases x <;> simp only [executeFamily] at h <;> cases h
  case ldSlotSlot.byte y z v => exact slotDst_ne_read y v _ src
  case ldSlotImm.byte y v => exact slotDst_ne_read y v _ src
  case incSlot.byte y v => exact slotDst_ne_read y _ _ src
  case jr.byte cc v => split <;> simp
  all_goals simp

theorem executePhase_answersAgreeing {f : Family} {x : SrcValue} (hf : familyOf s.pfx s.opc = some f)
    (hx : executeFamily f x s = some t) : AnswersAgreeing (executePhase x s) :=
  ⟨t, by simp [executePhase, hf, hx], latchesAgree_of_ne_read (executeFamily_ne_read hx)⟩

/-- A source that is ready when it is formed is of the kind its family takes (R147, R149). -/
theorem executeFamily_of_ready_source (f : Family) {x : SrcValue} (h : (sourceOf f s).1.value? = some x) (u : State) :
    ∃ t, executeFamily f x u = some t := by
  cases f with
  | ldPairImm | ldAMem | ldhImmA | ldSlotImm | jr => cases h
  | ldMemA | ldhCA | incPair | push => cases h; exact ⟨_, rfl⟩
  | xor z | ldSlotSlot y z | incSlot z | bit n z =>
    cases z with
    | reg r => cases h; exact ⟨_, rfl⟩
    | mem => cases h

/-- A source with reads to do is one its family forms. -/
theorem familyForms_sourceOf {f : Family} (hne : f ≠ .ldSlotSlot .mem .mem) (h : (sourceOf f s).1.value? = none) :
    familyForms f (sourceOf f s).1 = true := by
  cases f with
  | ldMemA | ldhCA | incPair | push => cases h
  | ldPairImm | ldAMem | ldhImmA | ldSlotImm | jr => rfl
  | xor z | incSlot z | bit n z =>
    cases z with
    | reg r => cases h
    | mem => rfl
  | ldSlotSlot y z =>
    cases z with
    | reg r => cases h
    | mem =>
      cases y with
      | reg dst => rfl
      | mem => contradiction

theorem decodePhase_answersAgreeing (s : State) (hs : s.latchesAgree = true) : AnswersAgreeing (decodePhase s) := by
  unfold decodePhase
  split
  · exact ⟨_, rfl, hs⟩
  · next f hf =>
    have hsame := sourceOf_surroundings s f
    have hf' : familyOf (sourceOf f s).2.pfx (sourceOf f s).2.opc = some f := by rw [hsame.pfx, hsame.opc, hf]
    split
    · next x hx =>
      obtain ⟨t, ht⟩ := executeFamily_of_ready_source f hx (sourceOf f s).2
      exact executePhase_answersAgreeing hf' ht
    · next hx =>
      have hne : f ≠ .ldSlotSlot .mem .mem := by rintro rfl; exact familyOf_ne_mem_mem _ _ hf
      exact ⟨_, rfl, (latchesAgree_read rfl).mpr ⟨f, hf', familyForms_sourceOf hne hx⟩⟩

/-! ## One M-cycle -/

theorem busRead_latchesAgree (a : Word) (s : State) : (busRead a s).state.latchesAgree = s.latchesAgree := by
  have hcore := busRead_core s a
  exact latchesAgree_congr hcore.stage hcore.opc hcore.pfx

theorem fetchCycle_answersAgreeing (hs : s.stage = .fetch) : AnswersAgreeing (fetchCycle s) := by
  have hkept : (busRead s.pc s).state.stage = .fetch := (busRead_core s s.pc).stage.trans hs
  unfold fetchCycle
  split
  · next s1 hr => rw [hr] at hkept; exact ⟨_, rfl, latchesAgree_of_fetch hkept⟩
  · next b s1 hr =>
    rw [hr] at hkept
    split
    · exact ⟨_, rfl, rfl⟩
    · exact decodePhase_answersAgreeing _ (latchesAgree_of_fetch hkept)

theorem fetchPrefixedCycle_answersAgreeing (hs : s.stage = .fetchPrefixed) : AnswersAgreeing (fetchPrefixedCycle s) := by
  have agrees : ∀ {u : State}, u.stage = .fetchPrefixed → u.latchesAgree = true := fun hu =>
    latchesAgree_of_ne_read fun src h => by rw [hu] at h; cases h
  have hkept : (busRead s.pc s).state.stage = .fetchPrefixed := (busRead_core s s.pc).stage.trans hs
  unfold fetchPrefixedCycle
  split
  · next s1 hr => rw [hr] at hkept; exact ⟨_, rfl, agrees hkept⟩
  · next b s1 hr => rw [hr] at hkept; exact decodePhase_answersAgreeing _ (agrees hkept)

/-- A byte read is what the families that form `SrcRead8` execute with. -/
theorem executeFamily_of_forms_read8 {f : Family} {a : Word} (h : familyForms f (.read8 a) = true) (v : Byte) (u : State) :
    ∃ t, executeFamily f (.byte v) u = some t := by
  cases f with
  | ldPairImm | incPair | push => cases h
  | _ => exact ⟨_, rfl⟩

theorem familyForms_read16 {f : Family} {a : Word} (h : familyForms f (.read16 a) = true) : ∃ p, f = .ldPairImm p := by
  cases f <;> cases h
  exact ⟨_, rfl⟩

theorem familyForms_read16Hi {f : Family} {a : Word} {lo : Byte} (h : familyForms f (.read16Hi a lo) = true) :
    ∃ p, f = .ldPairImm p := by
  cases f <;> cases h
  exact ⟨_, rfl⟩

section
variable {a : Word} {lo : Byte} {src : Src} {u : State}

theorem srcStep_read8_inv (h : srcStep (.read8 a) s = .ok src u) : ∃ v, src = .val8 v := by
  simp only [srcStep] at h
  split at h <;> cases h
  exact ⟨_, rfl⟩

theorem srcStep_read16_inv (h : srcStep (.read16 a) s = .ok src u) : ∃ v, src = .read16Hi (a + 1) v := by
  simp only [srcStep] at h
  split at h <;> cases h
  exact ⟨_, rfl⟩

theorem srcStep_read16Hi_inv (h : srcStep (.read16Hi a lo) s = .ok src u) : ∃ v, src = .val16 v := by
  simp only [srcStep] at h
  split at h <;> cases h
  exact ⟨_, rfl⟩

end

theorem readStageCycle_answersAgreeing {src : Src} (hs : s.stage = .read src) (h : s.latchesAgree = true) :
    AnswersAgreeing (readStageCycle src s) := by
  obtain ⟨f, hf, hforms⟩ := (latchesAgree_read hs).mp h
  have hcore := srcStep_core s src
  have hf' : familyOf (srcStep src s).state.pfx (srcStep src s).state.opc = some f := by rw [hcore.pfx, hcore.opc, hf]
  unfold readStageCycle
  cases hr : srcStep src s with
  | raised s1 =>
    rw [hr] at hcore
    exact ⟨_, rfl, (latchesAgree_congr hcore.stage hcore.opc hcore.pfx).trans h⟩
  | ok src' s1 =>
    rw [hr] at hf'
    cases src with
    | none | val8 | val16 => simp [familyForms] at hforms
    | read8 a =>
      obtain ⟨v, rfl⟩ := srcStep_read8_inv hr
      obtain ⟨t, ht⟩ := executeFamily_of_forms_read8 hforms v s1
      exact executePhase_answersAgreeing hf' ht
    | read16 a =>
      obtain ⟨v, rfl⟩ := srcStep_read16_inv hr
      obtain ⟨p, rfl⟩ := familyForms_read16 hforms
      exact ⟨_, rfl, (latchesAgree_read rfl).mpr ⟨_, hf', rfl⟩⟩
    | read16Hi a lo =>
      obtain ⟨v, rfl⟩ := srcStep_read16Hi_inv hr
      obtain ⟨p, rfl⟩ := familyForms_read16Hi hforms
      exact executePhase_answersAgreeing hf' (x := .word v) rfl

theorem writeStageCycle_answersAgreeing {dst : Dst} (hs : s.stage = .write dst) : AnswersAgreeing (writeStageCycle dst s) := by
  have hcore := dstStep_core s dst
  unfold writeStageCycle
  split
  · next s1 hr =>
    rw [hr] at hcore
    refine ⟨_, rfl, latchesAgree_of_ne_read fun src h => ?_⟩
    rw [hcore.stage.symm.trans h] at hs
    cases hs
  · exact ⟨_, rfl, latchesAgree_of_ne_read fun src h => by rw [State.setStage_stage] at h; split at h <;> cases h⟩

theorem cycle_answersAgreeing (s : State) (h : s.latchesAgree = true) : AnswersAgreeing (cycle s) := by
  unfold cycle
  split
  · exact ⟨_, rfl, h⟩
  · cases hs : s.stage with
    | fetch =>
      simp only
      split
      · exact ⟨_, rfl, latchesAgree_of_fetch hs⟩
      · exact fetchCycle_answersAgreeing hs
    | fetchPrefixed => exact fetchPrefixedCycle_answersAgreeing hs
    | read src => exact readStageCycle_answersAgreeing hs h
    | wait dst => exact ⟨_, rfl, rfl⟩
    | write dst => exact writeStageCycle_answersAgreeing hs

/-! ## One step -/

theorem finishInstr_answersAgreeing (n : Nat) : ∀ s : State, s.latchesAgree = true → AnswersAgreeing (finishInstr n s) := by
  induction n with
  | zero => exact fun s h => ⟨s, rfl, h⟩
  | succ n ih =>
    intro s h
    unfold finishInstr
    split
    · exact ⟨s, rfl, h⟩
    · obtain ⟨t, ht, hagree⟩ := cycle_answersAgreeing s h
      rw [ht]
      exact ih t hagree

/-- Off a boundary a step is the rest of the instruction (R152). -/
theorem step_of_not_atBoundary (h : s.atBoundary = false) : step s = finishInstr 5 s := by
  obtain ⟨hs, hf⟩ : s.stage ≠ .fetch ∧ s.flt.isSome = false := by simpa [State.atBoundary] using h
  simp [step, hf, hs]

theorem step_answersAgreeing (s : State) (h : s.latchesAgree = true) : AnswersAgreeing (step s) := by
  by_cases hb : s.atBoundary = false
  · rw [step_of_not_atBoundary hb]
    exact finishInstr_answersAgreeing 5 s h
  · by_cases hf : s.flt = none
    · have hs : s.stage = .fetch := by simpa [State.atBoundary, hf] using hb
      obtain ⟨t, ht, hagree⟩ := cycle_answersAgreeing s h
      rw [step_eq_cycle_then_finish s hf hs, ht]
      exact finishInstr_answersAgreeing 5 t hagree
    · rw [step_of_latched s hf]
      exact ⟨s, rfl, h⟩

/-- Settles O52: after reset no source is formed yet, and every M-cycle, so every step, keeps the agreement it needs to go on. -/
theorem executeNeverFailsOnAgreeingLatches : Obligations.ExecuteNeverFailsOnAgreeingLatches :=
  ⟨latchesAgree_of_fetch rfl, fun s h => ⟨step_answersAgreeing s h, cycle_answersAgreeing s h⟩⟩

end
end Sys2Proof.Machine
end

section
/-! The M-cycles left of the instruction in progress (40_stage_machine.md R150). Every M-cycle that latches nothing takes one off
them, and they are five at most, so resuming for five M-cycles always reaches the boundary, and it does not matter where the
instruction was suspended (R152, R154). -/
namespace Sys2Proof

/-! ## The count of a family, from its parts -/

/-- The bus accesses of a slot operand (R110, R144, R145). -/
def Slot.accesses : Slot → Nat
  | .reg _ => 0
  | .mem => 1

/-- The bus reads of the source a family forms (R149). -/
def Family.sourceReads : Family → Nat
  | .ldPairImm _ => 2
  | .ldAMem _ => 1
  | .xor z => z.accesses
  | .ldSlotSlot _ z => z.accesses
  | .ldhImmA => 1
  | .ldSlotImm _ => 1
  | .incSlot y => y.accesses
  | .jr _ => 1
  | .bit _ z => z.accesses
  | .ldMemA _ => 0
  | .ldhCA => 0
  | .incPair _ => 0
  | .push _ => 0

/-- The M-cycles after the one a family executes in: its writes and its idle M-cycles (R148, R149). -/
def Family.cyclesAfterExecute (taken : Bool) : Family → Nat
  | .ldMemA _ => 1
  | .ldSlotSlot y _ => y.accesses
  | .ldhImmA => 1
  | .ldhCA => 1
  | .ldSlotImm y => y.accesses
  | .incSlot y => y.accesses
  | .incPair _ => 1
  | .jr _ => if taken then 1 else 0
  | .push _ => 3
  | .ldPairImm _ => 0
  | .ldAMem _ => 0
  | .xor _ => 0
  | .bit _ _ => 0

/-- The M-cycles after the one that fetches the opcode byte. -/
def Family.cyclesAfterDecode (taken : Bool) (f : Family) : Nat := f.sourceReads + f.cyclesAfterExecute taken

/-- The table of R150 counts the fetch of the opcode bytes and what comes after it, for every family that is an instruction. -/
theorem Family.mCycles_eq {f : Family} (hne : f ≠ .ldSlotSlot .mem .mem) (taken : Bool) :
    f.mCycles taken = f.opcodeBytes.length + f.cyclesAfterDecode taken := by
  cases f with
  | xor z | ldSlotImm z | incSlot z | bit n z => cases z <;> rfl
  | ldSlotSlot y z =>
    cases z with
    | reg r => cases y <;> rfl
    | mem =>
      cases y with
      | reg dst => rfl
      | mem => contradiction
  | jr cc => cases taken <;> rfl
  | _ => rfl

theorem Slot.accesses_le (z : Slot) : z.accesses ≤ 1 := by cases z <;> simp [Slot.accesses]

theorem Family.cyclesAfterExecute_le (taken : Bool) (f : Family) : f.cyclesAfterExecute taken ≤ 3 := by
  cases f with
  | ldSlotSlot y | ldSlotImm y | incSlot y => exact (Slot.accesses_le y).trans (by decide)
  | jr => cases taken <;> simp [Family.cyclesAfterExecute]
  | _ => simp [Family.cyclesAfterExecute]

theorem Family.cyclesAfterDecode_le (taken : Bool) (f : Family) : f.cyclesAfterDecode taken ≤ 3 := by
  unfold Family.cyclesAfterDecode
  cases f with
  | xor z | bit n z | ldSlotImm z | incSlot z =>
    have := z.accesses_le
    simp only [Family.sourceReads, Family.cyclesAfterExecute]
    omega
  | ldSlotSlot y z =>
    have := y.accesses_le
    have := z.accesses_le
    simp only [Family.sourceReads, Family.cyclesAfterExecute]
    omega
  | jr => cases taken <;> simp [Family.sourceReads, Family.cyclesAfterExecute]
  | _ => simp [Family.sourceReads, Family.cyclesAfterExecute]

/-- `BIT` executes in its last M-cycle, so of a prefixed instruction at most the read of [HL] is left after its opcode byte. -/
theorem cyclesAfterDecode_of_prefixed {b : Byte} {f : Family} (h : familyOf true b = some f) (taken : Bool) :
    f.cyclesAfterDecode taken ≤ 1 := by
  obtain ⟨hp, -⟩ := opcode_of_familyOf h
  cases f with
  | bit n z => exact z.accesses_le
  | _ => cases hp

end Sys2Proof

namespace Sys2Proof.Machine

/-! ## The count of a stage -/

/-- The bus reads that remain of a source (R131). -/
def Src.reads : Src → Nat
  | .read8 _ => 1
  | .read16 _ => 2
  | .read16Hi _ _ => 1
  | .none => 0
  | .val8 _ => 0
  | .val16 _ => 0

/-- The M-cycles of a `Write` stage (R139): one for each bus write that remains, one where none does. -/
def Dst.cycles : Dst → Nat
  | .write16 _ _ => 2
  | .write8 _ _ => 1
  | .write16Hi _ _ => 1
  | .none => 1
  | .done => 1

/-- The M-cycles after the family the latches select has executed. -/
def State.executeCycles (s : State) : Nat :=
  (familyOf s.pfx s.opc).elim 0 fun f => f.cyclesAfterExecute (familyTakes f s)

/-- The M-cycles the stage has left to do, if none of them latches a fault. A ready source in a `Read` stage still takes one
(R137). -/
def State.stageCycles (s : State) : Nat :=
  match s.stage with
  | .fetch => 0
  | .fetchPrefixed => 1 + ((familyOf true (s.busByte s.pc)).elim 0 fun f => f.cyclesAfterDecode (familyTakes f s))
  | .read src => max 1 src.reads + s.executeCycles
  | .wait dst => 1 + dst.cycles
  | .write dst => dst.cycles

/-- The M-cycles left until the next boundary: none where a fault is latched. -/
def State.cyclesLeft (s : State) : Nat := if s.flt.isSome then 0 else s.stageCycles

section
variable {s t : State}

theorem cyclesLeft_of_flt (h : s.flt = none) : s.cyclesLeft = s.stageCycles := by simp [State.cyclesLeft, h]

theorem cyclesLeft_of_latched (h : s.flt ≠ none) : s.cyclesLeft = 0 := by
  simp [State.cyclesLeft, Option.isSome_iff_ne_none.mpr h]

theorem Dst.cycles_le (d : Dst) : d.cycles ≤ 2 := by cases d <;> simp [Dst.cycles]

theorem Src.reads_le (src : Src) : src.reads ≤ 2 := by cases src <;> simp [Src.reads]

theorem option_elim_le {α : Type} {n : Nat} {g : α → Nat} (o : Option α) (h : ∀ a, o = some a → g a ≤ n) :
    o.elim 0 g ≤ n := by
  cases o with
  | none => exact Nat.zero_le n
  | some a => exact h a rfl

theorem stageCycles_of_fetchPrefixed {f : Family} (h : s.stage = .fetchPrefixed)
    (hf : familyOf true (s.busByte s.pc) = some f) : s.stageCycles = 1 + f.cyclesAfterDecode (familyTakes f s) := by
  simp only [State.stageCycles, h, hf, Option.elim_some]

theorem stageCycles_of_fetchPrefixed_le (h : s.stage = .fetchPrefixed) : s.stageCycles ≤ 2 := by
  simp only [State.stageCycles, h]
  have := option_elim_le (familyOf true (s.busByte s.pc)) fun f hf => cyclesAfterDecode_of_prefixed hf (familyTakes f s)
  omega

theorem executeCycles_le (s : State) : s.executeCycles ≤ 3 :=
  option_elim_le _ fun f _ => f.cyclesAfterExecute_le (familyTakes f s)

theorem cyclesLeft_le (s : State) : s.cyclesLeft ≤ 5 := by
  by_cases hf : s.flt = none
  · rw [cyclesLeft_of_flt hf]
    cases hs : s.stage with
    | fetch => simp [State.stageCycles, hs]
    | fetchPrefixed => have := stageCycles_of_fetchPrefixed_le hs; omega
    | read src =>
      have := src.reads_le
      have := executeCycles_le s
      simp only [State.stageCycles, hs]
      omega
    | wait dst | write dst => have := dst.cycles_le; simp only [State.stageCycles, hs]; omega
  · rw [cyclesLeft_of_latched hf]
    exact Nat.zero_le _

theorem cyclesLeft_of_atBoundary (h : s.atBoundary = true) : s.cyclesLeft = 0 := by
  by_cases hf : s.flt = none
  · have hs : s.stage = .fetch := by simpa [State.atBoundary, hf] using h
    rw [cyclesLeft_of_flt hf, State.stageCycles, hs]
  · exact cyclesLeft_of_latched hf

theorem not_atBoundary_iff : s.atBoundary = false ↔ s.stage ≠ .fetch ∧ s.flt = none := by
  simp [State.atBoundary]

theorem cyclesLeft_pos (h : s.atBoundary = false) : 0 < s.cyclesLeft := by
  obtain ⟨hs, hf⟩ := not_atBoundary_iff.mp h
  rw [cyclesLeft_of_flt hf]
  unfold State.stageCycles
  split
  · contradiction
  · omega
  · omega
  · omega
  · next dst _ => cases dst <;> simp [Dst.cycles]

theorem atBoundary_of_cyclesLeft_eq_zero (h : s.cyclesLeft = 0) : s.atBoundary = true := by
  by_contra hb
  exact absurd h (cyclesLeft_pos (by simpa using hb)).ne'

/-- Whether a jump is taken is a matter of the flags alone. -/
theorem familyTakes_congr (f : Family) (h : t.f = s.f) : familyTakes f t = familyTakes f s := by
  cases f <;> simp only [familyTakes, h]

theorem executeCycles_congr (ho : t.opc = s.opc) (hp : t.pfx = s.pfx) (hf : t.f = s.f) :
    t.executeCycles = s.executeCycles := by
  simp only [State.executeCycles, ho, hp, familyTakes_congr _ hf]

theorem executeCycles_of_family {f : Family} (hf : familyOf s.pfx s.opc = some f) :
    s.executeCycles = f.cyclesAfterExecute (familyTakes f s) := by
  rw [State.executeCycles, hf, Option.elim_some]

/-! ## Decode and execute -/

theorem executeFamily_cyclesLeft {f : Family} {x : SrcValue} (h : executeFamily f x s = some t) (ht : t.flt = none) :
    t.cyclesLeft = f.cyclesAfterExecute (familyTakes f s) := by
  rw [cyclesLeft_of_flt ht]
  cases f <;> cases x <;> simp only [executeFamily] at h <;> cases h
  case ldSlotSlot.byte y z v => cases y <;> rfl
  case ldSlotImm.byte y v => cases y <;> rfl
  case incSlot.byte y v => cases y <;> rfl
  case jr.byte cc v =>
    rw [familyTakes]
    split <;> next hc => simp only [hc]; rfl
  all_goals rfl

theorem sourceOf_reads (f : Family) (s : State) : (sourceOf f s).1.reads = f.sourceReads := by
  cases f with
  | xor z | ldSlotSlot y z | incSlot z | bit n z => cases z <;> rfl
  | _ => rfl

theorem Src.reads_of_ready {src : Src} {x : SrcValue} (h : src.value? = some x) : src.reads = 0 := by
  cases src <;> cases h <;> rfl

theorem Src.reads_pos {src : Src} (h : src.value? = Option.none) : 0 < src.reads := by
  cases src <;> simp [Src.value?, Src.reads] at h ⊢

theorem executePhase_cyclesLeft {x : SrcValue} (h : executePhase x s = .next t) (ht : t.flt = none) :
    t.cyclesLeft = s.executeCycles := by
  obtain ⟨f, hf, hx⟩ := executePhase_inv h
  rw [executeFamily_cyclesLeft hx ht, executeCycles_of_family hf]

theorem stageCycles_setStage_read {src : Src} (h : src.value? = none) :
    (s.setStage (.read src)).stageCycles = src.reads + s.executeCycles := by
  have hmax : max 1 src.reads = src.reads := Nat.max_eq_right (Src.reads_pos h)
  rw [← hmax]
  rfl

theorem decodePhase_cyclesLeft (h : decodePhase s = .next t) (ht : t.flt = none) :
    ∃ f, familyOf s.pfx s.opc = some f ∧ t.cyclesLeft = f.cyclesAfterDecode (familyTakes f s) := by
  rcases decodePhase_inv h with ⟨-, rfl⟩ | ⟨f, hf, hcase⟩
  · cases ht
  · refine ⟨f, hf, ?_⟩
    have htakes : familyTakes f (sourceOf f s).2 = familyTakes f s := familyTakes_congr f (sourceOf_f s f)
    rw [Family.cyclesAfterDecode, ← sourceOf_reads f s, ← htakes]
    rcases hcase with ⟨x, hx, he⟩ | ⟨hx, rfl⟩
    · rw [executeFamily_cyclesLeft he ht, Src.reads_of_ready hx, Nat.zero_add]
    · have hsame := sourceOf_surroundings s f
      rw [cyclesLeft_of_flt ht, stageCycles_setStage_read hx, executeCycles_of_family (by rw [hsame.pfx, hsame.opc, hf])]

/-! ## One M-cycle -/

theorem Refused.flt_ne_none {old : List BusEvent} {q : Option BusRequest} (h : Refused old t q) : t.flt ≠ none := by
  cases h
  assumption

theorem fetchPrefixedCycle_cyclesLeft (hs : s.stage = .fetchPrefixed) (h : fetchPrefixedCycle s = .next t)
    (ht : t.flt = none) : s.stageCycles = t.cyclesLeft + 1 := by
  unfold fetchPrefixedCycle at h
  rcases busRead_cases s s.pc with ⟨-, hr⟩ | ⟨-, hr⟩ <;> simp only [hr] at h
  · obtain ⟨f, hf, hc⟩ := decodePhase_cyclesLeft h ht
    simp only [State.latch_pfx, State.latch_opc] at hf
    rw [stageCycles_of_fetchPrefixed hs hf, hc, Nat.add_comm]
    rfl
  · cases h; cases ht

/-- A source step makes one of the reads that remain, if any does (R132). -/
theorem srcStep_reads {src src' : Src} (h : srcStep src s = .ok src' t) : src'.reads = src.reads - 1 := by
  cases src with
  | none | val8 | val16 => cases h; rfl
  | read8 a => obtain ⟨v, rfl⟩ := srcStep_read8_inv h; rfl
  | read16 a => obtain ⟨v, rfl⟩ := srcStep_read16_inv h; rfl
  | read16Hi a lo => obtain ⟨v, rfl⟩ := srcStep_read16Hi_inv h; rfl

theorem readStageCycle_cyclesLeft {src : Src} (h : readStageCycle src s = .next t) (ht : t.flt = none) :
    max 1 src.reads + s.executeCycles = t.cyclesLeft + 1 := by
  have hcore := srcStep_core s src
  have hq := srcStep_makesAccess s src
  unfold readStageCycle at h
  cases hr : srcStep src s with
  | raised s1 => simp only [hr] at h hq; cases h; exact absurd ht hq.flt_ne_none
  | ok src' s1 =>
    simp only [hr] at h hcore
    have hreads := srcStep_reads hr
    rw [← executeCycles_congr hcore.opc hcore.pfx hcore.f]
    simp only [Res.state]
    split at h
    · next x hx =>
      have := Src.reads_of_ready hx
      rw [executePhase_cyclesLeft h ht]
      omega
    · next hx =>
      have := Src.reads_pos hx
      cases h
      rw [cyclesLeft_of_flt ht, stageCycles_setStage_read hx]
      omega

/-- A destination step makes one of the writes that remain, if any does (R134). -/
theorem dstStep_cycles {dst dst' : Dst} (h : dstStep dst s = .ok dst' t) :
    dst.cycles = (if dst'.isDone then 0 else dst'.cycles) + 1 := by
  cases dst with
  | none | done => cases h; rfl
  | write8 | write16 | write16Hi => simp only [dstStep] at h; split at h <;> cases h; rfl

theorem writeStageCycle_cyclesLeft {dst : Dst} (h : writeStageCycle dst s = .next t) (ht : t.flt = none) :
    dst.cycles = t.cyclesLeft + 1 := by
  have hq := dstStep_makesAccess s dst
  unfold writeStageCycle at h
  cases hr : dstStep dst s with
  | raised s1 => simp only [hr] at h hq; cases h; exact absurd ht hq.flt_ne_none
  | ok dst' s1 =>
    simp only [hr] at h
    cases h
    rw [cyclesLeft_of_flt ht, dstStep_cycles hr]
    cases dst'.isDone <;> rfl

/-- Inside an instruction an M-cycle that latches nothing is one of those left. -/
theorem cycle_cyclesLeft (hb : s.atBoundary = false) (h : cycle s = .next t) (ht : t.flt = none) :
    s.cyclesLeft = t.cyclesLeft + 1 := by
  obtain ⟨hs, hf⟩ := not_atBoundary_iff.mp hb
  rw [cyclesLeft_of_flt hf]
  cases hst : s.stage with
  | fetch => contradiction
  | fetchPrefixed =>
    simp only [cycle, hf, hst, Option.isSome_none, Bool.false_eq_true, if_false] at h
    exact fetchPrefixedCycle_cyclesLeft (s := s.tick) hst h ht
  | read src =>
    rw [cycle_read s src hf hst] at h
    rw [← readStageCycle_cyclesLeft h ht]
    simp only [State.stageCycles, hst]
    rfl
  | wait dst =>
    rw [cycle_wait s dst hf hst] at h
    cases h
    rw [cyclesLeft_of_flt ht]
    simp only [State.stageCycles, hst, State.setStage_stage, Nat.add_comm]
  | write dst =>
    rw [cycle_write s dst hf hst] at h
    rw [← writeStageCycle_cyclesLeft h ht]
    simp only [State.stageCycles, hst]

theorem cycle_cyclesLeft_lt (hb : s.atBoundary = false) (h : cycle s = .next t) : t.cyclesLeft < s.cyclesLeft := by
  by_cases ht : t.flt = none
  · have := cycle_cyclesLeft hb h ht
    omega
  · rw [cyclesLeft_of_latched ht]
    exact cyclesLeft_pos hb

/-! ## The rest of an instruction -/

theorem finishInstr_of_atBoundary (n : Nat) (h : s.atBoundary = true) : finishInstr n s = .next s := by
  cases n with
  | zero => rfl
  | succ n => simp [finishInstr, h]

theorem finishInstr_of_not_atBoundary (n : Nat) (h : s.atBoundary = false) :
    finishInstr (n + 1) s = bindNext (cycle s) (finishInstr n) := by
  obtain ⟨hs, hf⟩ := not_atBoundary_iff.mp h
  exact finishInstr_succ n s hs hf

end

theorem bindNext_eq_next_iff {o : Host.Outcome State Fault Refusal} {k : State → Host.Outcome State Fault Refusal}
    {t : State} : bindNext o k = .next t ↔ ∃ u, o = .next u ∧ k u = .next t := by
  cases o <;> simp [bindNext]

/-- As many M-cycles as are left reach the boundary. -/
theorem finishInstr_reaches_boundary (n : Nat) :
    ∀ {s t : State}, s.cyclesLeft ≤ n → finishInstr n s = .next t → t.atBoundary = true := by
  induction n with
  | zero =>
    intro s t hn h
    cases h
    exact atBoundary_of_cyclesLeft_eq_zero (Nat.le_zero.mp hn)
  | succ n ih =>
    intro s t hn h
    cases hb : s.atBoundary with
    | true => rw [finishInstr_of_atBoundary _ hb] at h; cases h; exact hb
    | false =>
      rw [finishInstr_of_not_atBoundary n hb] at h
      obtain ⟨u, hu, ht⟩ := bindNext_eq_next_iff.mp h
      have := cycle_cyclesLeft_lt hb hu
      exact ih (by omega) ht

/-- More M-cycles than are left make no difference. -/
theorem finishInstr_stable (n : Nat) : ∀ {s : State}, s.cyclesLeft ≤ n → finishInstr (n + 1) s = finishInstr n s := by
  induction n with
  | zero =>
    intro s hn
    have hb := atBoundary_of_cyclesLeft_eq_zero (Nat.le_zero.mp hn)
    rw [finishInstr_of_atBoundary _ hb, finishInstr_of_atBoundary _ hb]
  | succ n ih =>
    intro s hn
    cases hb : s.atBoundary with
    | true => rw [finishInstr_of_atBoundary _ hb, finishInstr_of_atBoundary _ hb]
    | false =>
      rw [finishInstr_of_not_atBoundary _ hb, finishInstr_of_not_atBoundary n hb]
      cases hu : cycle s with
      | next u =>
        have := cycle_cyclesLeft_lt hb hu
        exact ih (by omega)
      | fault r => rfl
      | refused r => rfl

/-! ## Suspending and resuming -/

/-- Settles O46: a suspended instruction has five M-cycles left at most, so finishing it for five is finishing it for the four or
five that going on would have performed. -/
theorem suspendAndResume : Obligations.SuspendAndResume := by
  intro s s1 hf hc hb
  rw [step_of_not_atBoundary hb]
  by_cases hs : s.stage = .fetch
  · rw [step_eq_cycle_then_finish s hf hs, hc]
    rfl
  · have hs' : s.atBoundary = false := not_atBoundary_iff.mpr ⟨hs, hf⟩
    have hlt := cycle_cyclesLeft_lt hs' hc
    have hle := cyclesLeft_le s
    rw [step_of_not_atBoundary hs', finishInstr_of_not_atBoundary 4 hs', hc]
    exact finishInstr_stable 4 (by omega)

/-- Settles O47: a step stands still at a latched fault, or finishes an instruction with no more than five M-cycles left. -/
theorem stepsEndAtBoundaries : Obligations.StepsEndAtBoundaries := by
  intro s t h
  cases hb : s.atBoundary with
  | false => exact finishInstr_reaches_boundary 5 (cyclesLeft_le s) (step_of_not_atBoundary hb ▸ h)
  | true =>
    by_cases hf : s.flt = none
    · have hs : s.stage = .fetch := by simpa [State.atBoundary, hf] using hb
      obtain ⟨u, -, ht⟩ := bindNext_eq_next_iff.mp (step_eq_cycle_then_finish s hf hs ▸ h)
      exact finishInstr_reaches_boundary 5 (cyclesLeft_le u) ht
    · rw [step_of_latched s hf] at h
      cases h
      exact hb

end Sys2Proof.Machine
end

section
/-! The fetch of an instruction at the instruction level (40_stage_machine.md R136, R138): bytes answered by the bus are fetched as the
instruction they decode to. -/
namespace Sys2Proof.Machine

variable {s s1 : State}

/-! ## From the bytes read to the instruction -/

/-- The latched opcode byte's family fetches the immediates that follow it. -/
theorem fetchFamily_of_readRun {f : Family} {imm : List Byte} {i : Instr} {u v : State} (hf : familyOf v.pfx v.opc = some f)
    (hmakes : f.Makes imm i) (h : readRun imm.length (u.pc + 1) u = .ok imm s1) (hpc : v.pc = u.pc) (hm : v.mem = u.mem)
    (hh : v.history = u.history) :
    fetchFamily v = .ok i { v with history := s1.history, clock := v.clock + imm.length, stage := .fetch } := by
  obtain ⟨hlen, hi⟩ := hmakes
  rw [hlen] at h ⊢
  simp only [fetchFamily, hf]
  exact fetchImmediate_of_readRun u h hi hpc hm hh

theorem fetchInstr_unprefixed {b : Byte} {imm : List Byte} {f : Family} {i : Instr} (hb : b ≠ 0xCB)
    (hf : familyOf false b = some f) (hmakes : f.Makes imm i) (h : readRun (imm.length + 1) s.pc s = .ok (b :: imm) s1) :
    fetchInstr s = .ok i (s1.afterFetch (b :: imm)) := by
  obtain ⟨b', bs, u, hbytes, hread, hrest⟩ := readRun_succ_inv _ _ h
  cases hbytes
  obtain ⟨-, -, hu⟩ := readCycle_inv _ _ hread
  have hupc : u.pc = s.pc := by rw [hu]; rfl
  have hfetch : fetchFamily (u.latch b false) = _ :=
    fetchFamily_of_readRun (u := u) hf hmakes (by rwa [hupc]) rfl rfl rfl
  obtain ⟨rfl, -⟩ := readRun_inv _ _ hrest
  simp only [fetchInstr, hread, if_neg hb, hfetch, State.afterFetch]
  rfl

/-- A prefixed instruction has no immediates, so its second byte is its last. -/
theorem fetchInstr_prefixed {b : Byte} {f : Family} {i : Instr} (hf : familyOf true b = some f) (hmakes : f.Makes [] i)
    (h : readRun 2 s.pc s = .ok [0xCB, b] s1) : fetchInstr s = .ok i (s1.afterFetch [0xCB, b]) := by
  obtain ⟨_, _, u, hbytes, hread, hrest⟩ := readRun_succ_inv _ _ h
  cases hbytes
  obtain ⟨_, _, v, hbytes, hread2, hend⟩ := readRun_succ_inv _ _ hrest
  cases hbytes
  obtain ⟨-, rfl⟩ := readRun_zero_inv _ _ hend
  obtain ⟨-, -, hu⟩ := readCycle_inv _ _ hread
  obtain ⟨-, -, rfl⟩ := readCycle_inv _ _ hread2
  -- The state the second byte is read in: 0xCB latched and PC past it.
  generalize hx : ((u.latch 0xCB false).movePc 1).setStage .fetchPrefixed = x
  have hxpc : x.pc = s.pc + 1 := by rw [← hx, hu]; rfl
  have hread2' := readCycle_congr u (s.pc + 1) x hread2 (by rw [← hx]; rfl) (by rw [← hx]; rfl)
  have hfetch : fetchFamily ((x.tick.log (.read (s.pc + 1) b)).latch b true) = _ :=
    fetchFamily_of_readRun hf hmakes rfl rfl rfl rfl
  simp only [fetchInstr, hread, if_true, hx, fetchPrefixed, hxpc, hread2', hfetch, Res.ok.injEq, true_and]
  subst hx
  apply State.eq_of_fields <;> simp [State.afterFetch]

/-- The bytes that decode to an instruction, answered by the bus, are fetched as it. -/
theorem fetchInstr_of_decode {bytes : List Byte} {i : Instr} (hd : decode bytes = .ok (i, []))
    (h : readRun bytes.length s.pc s = .ok bytes s1) : fetchInstr s = .ok i (s1.afterFetch bytes) := by
  obtain ⟨f, imm, hmakes, rfl⟩ := decode_eq_ok_iff.mp hd
  have hf := hmakes.familyOf_opcode
  rw [List.append_nil, Family.opcodeBytes] at h ⊢
  cases hp : f.prefixed with
  | true =>
    rw [hp] at hf h
    have himm : imm = [] := List.length_eq_zero_iff.mp (hmakes.1.trans (familyOf_prefixed_immBytes hf))
    subst himm
    exact fetchInstr_prefixed hf hmakes h
  | false =>
    rw [hp] at hf h
    have hne : f.opcode ≠ 0xCB := fun hb => by rw [hb] at hf; cases hf
    exact fetchInstr_unprefixed hne hf hmakes h

/-! ## The state a meaning starts in -/

theorem afterFetch_prefixed (rest : List Byte) :
    s.afterFetch (0xCB :: rest) = ((s.latch (rest.headD 0) true).movePc 1).setStage .fetch := rfl

theorem afterFetch_unprefixed {b : Byte} (hb : b ≠ 0xCB) (rest : List Byte) :
    s.afterFetch (b :: rest) = (s.latch b false).setStage .fetch := if_neg hb

/-- Bus history and M-cycle count are no registers. -/
theorem get8_history_clock (n : Reg8) (events : List BusEvent) (k : Nat) :
    ({ s with history := events, clock := k } : State).get8 n = s.get8 n := by cases n <;> rfl

/-- Settles O44: the bytes read are the fetch of the instruction they decode to, and the latches are all it writes besides. -/
theorem stepRunsDecodedInstruction : Obligations.StepRunsDecodedInstruction := by
  intro s s1 bytes i hready hd _ h
  obtain ⟨hf, hs, hp⟩ := hready
  refine ⟨by rw [step_of_ready s hf hs hp, fetchInstr_of_decode hd h], ?_⟩
  obtain ⟨rfl, -⟩ := readRun_inv _ _ h
  cases bytes with
  | nil => cases hd
  | cons b rest =>
    by_cases hb : b = 0xCB
    · subst hb
      rw [afterFetch_prefixed]
      exact ⟨rfl, rfl, rfl, hf, rfl, rfl,
        fun n => by simp [get8_history_clock], rfl, rfl, rfl, rfl⟩
    · have hhead : (b :: rest).head? ≠ some 0xCB := fun h => hb (Option.some.inj h)
      rw [afterFetch_unprefixed hb]
      exact ⟨(if_neg hhead).symm, (beq_eq_false_iff_ne.mpr hhead).symm, rfl, hf, rfl, rfl,
        fun n => by simp [get8_history_clock], rfl, rfl, rfl, rfl⟩

end Sys2Proof.Machine
end

section
/-! A step as a run of M-cycles (00_scope.md R12, 40_stage_machine.md R150): from a boundary the M-cycle machine performs the opcode
fetch and the M-cycles left after it, and meets no boundary on the way. -/
namespace Sys2Proof.Machine

/-- `n` M-cycles lead from `s` to `t`, the first boundary met, `s` itself if it is one. -/
inductive RunsToBoundary : Nat → State → State → Prop where
  | here {s : State} (boundary : s.atBoundary = true) : RunsToBoundary 0 s s
  | after {n : Nat} {s u t : State} (inside : s.atBoundary = false) (next : cycle s = .next u)
      (rest : RunsToBoundary n u t) : RunsToBoundary (n + 1) s t

theorem runCycles_succ (n : Nat) {s u : State} (h : cycle s = .next u) : runCycles (n + 1) s = runCycles n u := by
  simp only [runCycles, h]

section
variable {n : Nat} {s t : State}

theorem RunsToBoundary.atBoundary (h : RunsToBoundary n s t) : t.atBoundary = true := by
  induction h with
  | here boundary => exact boundary
  | after _ _ _ ih => exact ih

theorem RunsToBoundary.runCycles_eq (h : RunsToBoundary n s t) : runCycles n s = .next t := by
  induction h with
  | here => rfl
  | after _ next _ ih => rw [runCycles_succ _ next, ih]

theorem RunsToBoundary.inside_before (h : RunsToBoundary n s t) :
    ∀ m < n, ∃ u, runCycles m s = .next u ∧ u.atBoundary = false := by
  induction h with
  | here => exact fun m hm => absurd hm (Nat.not_lt_zero m)
  | @after n s u t inside next _ ih =>
    intro m hm
    cases m with
    | zero => exact ⟨s, rfl, inside⟩
    | succ m =>
      rw [runCycles_succ m next]
      exact ih m (by omega)

theorem RunsToBoundary.finishInstr_eq (h : RunsToBoundary n s t) : ∀ {k}, n ≤ k → finishInstr k s = .next t := by
  induction h with
  | here boundary => exact fun _ => finishInstr_of_atBoundary _ boundary
  | after inside next _ ih =>
    intro k hk
    cases k with
    | zero => omega
    | succ k =>
      rw [finishInstr_of_not_atBoundary k inside, next]
      exact ih (by omega)

theorem RunsToBoundary.clock_eq (h : RunsToBoundary n s t) : t.clock = s.clock + n := by
  induction h with
  | here => rfl
  | after inside next _ ih =>
    obtain ⟨-, hf⟩ := not_atBoundary_iff.mp inside
    obtain ⟨hclock, -⟩ := cycle_effect hf next
    omega

theorem RunsToBoundary.le_cyclesLeft (h : RunsToBoundary n s t) : n ≤ s.cyclesLeft := by
  induction h with
  | here => exact Nat.zero_le _
  | after inside next _ ih => have := cycle_cyclesLeft_lt inside next; omega

/-- Faults are sticky, so a run that ends without one began without one. -/
theorem RunsToBoundary.flt_eq_none (h : RunsToBoundary n s t) (ht : t.flt = none) : s.flt = none := by
  cases h with
  | here => exact ht
  | after inside => exact (not_atBoundary_iff.mp inside).2

/-- A run that latches no fault takes all the M-cycles left. -/
theorem RunsToBoundary.cyclesLeft_eq (h : RunsToBoundary n s t) (ht : t.flt = none) : s.cyclesLeft = n := by
  induction h with
  | here boundary => exact cyclesLeft_of_atBoundary boundary
  | after inside next rest ih => rw [cycle_cyclesLeft inside next (rest.flt_eq_none ht), ih ht]

end

/-- Latches that agree with the stage run to the next boundary (R142). -/
theorem exists_runsToBoundary (k : Nat) :
    ∀ {s : State}, s.cyclesLeft ≤ k → s.latchesAgree = true → ∃ n t, RunsToBoundary n s t := by
  induction k with
  | zero => exact fun hk _ => ⟨0, _, .here (atBoundary_of_cyclesLeft_eq_zero (Nat.le_zero.mp hk))⟩
  | succ k ih =>
    intro s hk hagree
    cases hb : s.atBoundary with
    | true => exact ⟨0, s, .here hb⟩
    | false =>
      obtain ⟨u, hu, huagree⟩ := cycle_answersAgreeing s hagree
      have := cycle_cyclesLeft_lt hb hu
      obtain ⟨n, t, hrun⟩ := ih (by omega) huagree
      exact ⟨n + 1, t, .after hb hu hrun⟩

/-! ## The first M-cycle -/

section
variable {s u : State}

/-- The M-cycle of the opcode fetch leaves three at most. -/
theorem fetchCycle_cyclesLeft_le (h : fetchCycle s = .next u) : u.cyclesLeft ≤ 3 := by
  by_cases hu : u.flt = none
  · unfold fetchCycle at h
    rcases busRead_cases s s.pc with ⟨-, hr⟩ | ⟨-, hr⟩ <;> simp only [hr] at h
    · split at h
      · cases h
        rw [cyclesLeft_of_flt hu]
        exact (stageCycles_of_fetchPrefixed_le rfl).trans (by decide)
      · obtain ⟨f, -, hc⟩ := decodePhase_cyclesLeft h hu
        rw [hc]
        exact f.cyclesAfterDecode_le _
    · cases h; cases hu
  · rw [cyclesLeft_of_latched hu]
    exact Nat.zero_le _

theorem cycle_cyclesLeft_le_of_fetch (hf : s.flt = none) (hs : s.stage = .fetch) (h : cycle s = .next u) :
    u.cyclesLeft ≤ 3 := by
  simp only [cycle, hf, hs, Option.isSome_none, Bool.false_eq_true, if_false] at h
  split at h
  · cases h
    exact (cyclesLeft_of_latched (by simp)).trans_le (Nat.zero_le 3)
  · exact fetchCycle_cyclesLeft_le h

/-- From a boundary a step is one M-cycle and the run to the next boundary. -/
theorem step_runs (hf : s.flt = none) (hs : s.stage = .fetch) :
    ∃ n u t, cycle s = .next u ∧ u.cyclesLeft ≤ 3 ∧ RunsToBoundary n u t ∧ step s = .next t := by
  obtain ⟨u, hu, hagree⟩ := cycle_answersAgreeing s (latchesAgree_of_fetch hs)
  obtain ⟨n, t, hrun⟩ := exists_runsToBoundary 5 (cyclesLeft_le u) hagree
  refine ⟨n, u, t, hu, cycle_cyclesLeft_le_of_fetch hf hs hu, hrun, ?_⟩
  rw [step_eq_cycle_then_finish s hf hs, hu]
  exact hrun.finishInstr_eq (hrun.le_cyclesLeft.trans (cyclesLeft_le u))

end

/-- Settles O45: the opcode fetch leaves three M-cycles at most, and the run to the next boundary takes no more than are left. -/
theorem stepIsMCyclesToBoundary : Obligations.StepIsMCyclesToBoundary := by
  intro s hf hs
  obtain ⟨n, u, t, hu, hle, hrun, hstep⟩ := step_runs hf hs
  have hn := hrun.le_cyclesLeft
  refine ⟨n + 1, t, by omega, by omega, hstep, by rw [runCycles_succ n hu, hrun.runCycles_eq], hrun.atBoundary, ?_⟩
  intro m hm hmn
  obtain ⟨m, rfl⟩ := Nat.exists_eq_succ_of_ne_zero hm.ne'
  rw [runCycles_succ m hu]
  exact hrun.inside_before m (by omega)

/-! ## The table of R150 -/

section
variable {s s1 u : State}

theorem cycle_of_ready {b : Byte} (h : s.Ready) (hread : readCycle s.pc s = .ok b u) :
    cycle s = if b = 0xCB then .next (((u.latch b false).movePc 1).setStage .fetchPrefixed)
      else decodePhase (u.latch b false) := by
  obtain ⟨hf, hs, hp⟩ := h
  have hbus : busRead s.tick.pc s.tick = .ok b u := hread
  simp only [cycle, hf, hs, hp, Option.isSome_none, Bool.false_eq_true, if_false, fetchCycle, hbus]

/-- The M-cycles left after the first one, with it, are those the table counts for the family fetched. -/
theorem cyclesLeft_after_fetch {f : Family} {imm : List Byte} (h : s.Ready) (hf : familyOf f.prefixed f.opcode = some f)
    (hread : readRun (f.opcodeBytes ++ imm).length s.pc s = .ok (f.opcodeBytes ++ imm) s1) (hc : cycle s = .next u)
    (hu : u.flt = none) : u.cyclesLeft + 1 = f.mCycles (familyTakes f s) := by
  have hne : f ≠ .ldSlotSlot .mem .mem := by rintro rfl; exact familyOf_ne_mem_mem _ _ hf
  rw [Family.mCycles_eq hne]
  unfold Family.opcodeBytes at hread ⊢
  cases hp : f.prefixed with
  | true =>
    simp only [hp, if_true, List.cons_append, List.nil_append, List.length_cons, List.length_nil, Nat.zero_add]
      at hread hf ⊢
    obtain ⟨_, _, v, hbytes, hescape, hrest⟩ := readRun_succ_inv _ _ hread
    cases hbytes
    obtain ⟨_, _, w, hbytes, hopcode, -⟩ := readRun_succ_inv _ _ hrest
    cases hbytes
    obtain ⟨-, -, hv⟩ := readCycle_inv _ _ hescape
    obtain ⟨-, hb, -⟩ := readCycle_inv _ _ hopcode
    rw [cycle_of_ready h hescape, if_pos rfl] at hc
    have hx := Host.Outcome.next.inj hc
    have hstage : u.stage = .fetchPrefixed := by rw [← hx]; rfl
    have hpc : u.pc = s.pc + 1 := by simp [← hx, hv]
    have hflags : u.f = s.f := by simp [← hx, hv]
    have hbyte : u.busByte (s.pc + 1) = f.opcode := by rw [hb, ← hx]; rfl
    rw [cyclesLeft_of_flt hu, stageCycles_of_fetchPrefixed hstage (by rw [hpc, hbyte, hf]),
      familyTakes_congr f hflags]
    omega
  | false =>
    simp only [hp, Bool.false_eq_true, if_false, List.cons_append, List.nil_append, List.length_cons, List.length_nil, Nat.zero_add]
      at hread hf ⊢
    obtain ⟨_, _, v, hbytes, hopcode, -⟩ := readRun_succ_inv _ _ hread
    cases hbytes
    have hcb : f.opcode ≠ 0xCB := fun hb => by rw [hb] at hf; cases hf
    obtain ⟨-, -, hv⟩ := readCycle_inv _ _ hopcode
    rw [cycle_of_ready h hopcode, if_neg hcb] at hc
    obtain ⟨f', hf', hleft⟩ := decodePhase_cyclesLeft hc hu
    simp only [State.latch_pfx, State.latch_opc] at hf'
    obtain rfl : f = f' := Option.some.inj (hf.symm.trans hf')
    rw [hleft, familyTakes_congr f (s := s) (by simp [hv]), Nat.add_comm]

end

/-- Settles O48: with no fault latched the run takes exactly the M-cycles left after the opcode fetch, which the table counts. -/
theorem scheduleMatchesTable : Obligations.ScheduleMatchesTable := by
  intro s s1 t f lo hi i hready hinstr hread hstep ht
  obtain ⟨hf, hs, hp⟩ := hready
  obtain ⟨n, u, t', hu, -, hrun, hstep'⟩ := step_runs hf hs
  obtain rfl : t' = t := by rw [hstep] at hstep'; cases hstep'; rfl
  have hleft : u.cyclesLeft + 1 = f.mCycles (familyTakes f s) := by
    rw [Instr.length, encode_of_instrOf hinstr] at hread
    exact cyclesLeft_after_fetch ⟨hf, hs, hp⟩ (familyOf_opcode hinstr) hread hu (hrun.flt_eq_none ht)
  obtain ⟨hclock, -⟩ := cycle_effect hf hu
  have hend := hrun.clock_eq
  rw [← hleft, hrun.cyclesLeft_eq ht, runCycles_succ n hu]
  exact ⟨by omega, hrun.runCycles_eq⟩

end Sys2Proof.Machine
end

section
/-! The 8-bit loads and stores (41_loads_8bit.md R172 to R185): what a register write, a byte read into a register and a byte
write leave, and the result of each form assembled from them. -/
namespace Sys2Proof.Machine

/-! ## Register writes -/

section
variable {s u : State} {but : List Reg8} {sp : Word}

theorem Leaves.set8 (h : Leaves s u but sp) (r : Reg8) (v : Byte) : Leaves s (u.set8 r v) (r :: but) sp := by
  obtain ⟨hregs, hsp, hopc, hpfx, hime, hinc8⟩ := h
  refine ⟨fun k hk => ?_, by simpa, by simpa, by simpa, by simpa, by simpa⟩
  obtain ⟨hkr, hkbut⟩ := not_or.mp (mt List.mem_cons.mpr hk)
  exact (u.get8_set8_other r k v hkr).trans (hregs k hkbut)

theorem Leaves.advance (h : Leaves s u but sp) (n : Word) : Leaves s (u.advance n) but sp := by
  obtain ⟨hregs, hsp, hopc, hpfx, hime, hinc8⟩ := h
  exact ⟨fun k hk => (u.advance_get8 n k).trans (hregs k hk), hsp, hopc, hpfx, hime, hinc8⟩

theorem leaves_set16_hl (s : State) (v : Word) : Leaves s (s.set16 .hl v) [.h, .l] s.sp := by
  refine ⟨fun k hk => ?_, rfl, rfl, rfl, rfl, rfl⟩
  cases k with
  | h | l => simp at hk
  | _ => rfl

/-- A register written and PC moved on, with no access to the bus: the loads of R179 and R182. -/
theorem set8_advance_completes (s : State) {r : Reg8} (hr : r ≠ .f) (v : Byte) (n : Word) :
    ((s.set8 r v).advance n).get8 r = v ∧ Leaves s ((s.set8 r v).advance n) [r] s.sp ∧
      KeepsMemory s ((s.set8 r v).advance n) ∧ Completes s ((s.set8 r v).advance n) (s.pc + n) 0 [] :=
  ⟨by simp [hr], ((leaves_refl s).set8 r v).advance n, fun x => by simp, ⟨by simp, rfl, by simp, by simp, by simp⟩⟩

end

/-! ## A byte read into a register -/

section
variable {s u t : State} {a : Word} {r : Reg8} {n : Word} {but : List Reg8} {sp : Word}

/-- A read drawn from the same storage after the same history returns the same byte. -/
theorem State.busByte_congr (hm : u.mem = s.mem) (hh : u.history = s.history) (a : Word) : u.busByte a = s.busByte a := by
  unfold State.busByte
  rw [hm, hh]

/-- The read M-cycle itself is within every frame. -/
theorem Leaves.afterRead (h : Leaves s u but sp) (st : Stage) (e : BusEvent) :
    Leaves s (((u.setStage st).tick).log e) but sp := by
  obtain ⟨hregs, hsp, hopc, hpfx, hime, hinc8⟩ := h
  exact ⟨fun k hk => by rw [← hregs k hk]; simp, hsp, hopc, hpfx, hime, hinc8⟩

/-- A read of a mapped address whose byte goes to register `r`, PC moving on after it: the loads of R175 to R177 and R180.
`u` is the state the read starts in, `s` with at most registers stepped. -/
theorem readInto_completes (ht : t = readByteThen a (fun v u' => (u'.set8 r v).advance n) u) (ha : Readable a)
    (hr : r ≠ .f) (hl : Leaves s u but sp) (hm : u.mem = s.mem) (hpc : u.pc = s.pc) (hf : u.flt = s.flt)
    (hc : u.clock = s.clock) (hh : u.history = s.history) :
    t.get8 r = s.busByte a ∧ Leaves s t (r :: but) sp ∧ KeepsMemory s t ∧
      Completes s t (s.pc + n) 1 [.read a (s.busByte a)] := by
  rw [readByteThen_ok u a _ ha, State.busByte_congr hm hh] at ht
  subst ht
  refine ⟨by simp [hr], ((hl.afterRead _ _).set8 r _).advance n, fun x => by simp [hm], ?_⟩
  exact ⟨by simp [hpc], rfl, by simp [hf], by simp [hc], by simp [hh]⟩

/-- The same from the instruction's own state. -/
theorem readInto_completes_self (s : State) (ha : Readable a) (hr : r ≠ .f)
    (ht : t = readByteThen a (fun v u' => (u'.set8 r v).advance n) s) :
    t.get8 r = s.busByte a ∧ Leaves s t [r] s.sp ∧ KeepsMemory s t ∧
      Completes s t (s.pc + n) 1 [.read a (s.busByte a)] :=
  readInto_completes ht ha hr (leaves_refl s) rfl rfl rfl rfl rfl

/-- The HL that was stepped before a read into A is the HL after it. -/
theorem readIntoA_get16_hl (ha : Readable a) :
    (readByteThen a (fun v u' => (u'.set8 .a v).advance n) u).get16 .hl = u.get16 .hl := by
  rw [readByteThen_ok u a _ ha]
  rfl

end

/-! ## A byte written -/

/-- A write with PC moved on before it and nothing else: the stores of R172, R181, R183 to R185. -/
theorem writeByte_advance_completes (s : State) {a : Word} (ha : Writable a) (v : Byte) (n : Word) :
    (∀ x, (writeByte a v (s.advance n)).mem.read x = storedAt s.mem a v x) ∧
      Leaves s (writeByte a v (s.advance n)) [] s.sp ∧
      Completes s (writeByte a v (s.advance n)) (s.pc + n) 1 [.write a v] :=
  writeByte_completes s a v (cycles := 0) (events := []) ha rfl (leaves_advance s n) rfl rfl rfl rfl

@[simp] theorem writeByte_hl (s : State) (a : Word) (v : Byte) : (writeByte a v s).hl = s.hl := by
  have hcore := busWrite_core (s.setStage (.write (.write8 a v))).tick a v
  unfold writeByte writeCycle
  split <;> next hw => rw [hw] at hcore; exact hcore.hl

/-! ## The address forms of R146 -/

/-- `[BC]` and `[DE]` name the pair and step nothing. -/
theorem addrR16Mem_pair {m : MemSel} {p : Reg16} (h : (m, p) ∈ [(MemSel.bc, Reg16.bc), (MemSel.de, Reg16.de)]) (s : State) :
    addrR16Mem m s = (s.get16 p, s) := by
  simp only [List.mem_cons, Prod.mk.injEq, List.not_mem_nil, or_false] at h
  rcases h with ⟨rfl, rfl⟩ | ⟨rfl, rfl⟩ <;> rfl

/-- `[HL+]` and `[HL-]` name the old HL and step it by `d`, which is 1 or -1 modulo 65536. -/
theorem addrR16Mem_stepped {m : MemSel} {d : Word} (h : (m, d) ∈ [(MemSel.hlInc, (1 : Word)), (MemSel.hlDec, 0xFFFF)])
    (s : State) : addrR16Mem m s = (s.get16 .hl, s.set16 .hl (s.get16 .hl + d)) := by
  simp only [List.mem_cons, Prod.mk.injEq, List.not_mem_nil, or_false] at h
  rcases h with ⟨rfl, rfl⟩ | ⟨rfl, rfl⟩
  · rfl
  · have hsub : s.get16 .hl - 1 = s.get16 .hl + 0xFFFF := BitVec.sub_eq_add_neg _ _
    rw [← hsub]
    rfl

/-! ## The statements about the 8-bit loads and stores -/

/-- Settles O15: a write at the pair's value. -/
theorem storeAThroughPairResult : Obligations.StoreAThroughPairResult := by
  intro m p s hmp hw
  refine ⟨_, exec_storeA s m, ?_⟩
  rw [storeThrough, addrR16Mem_pair hmp]
  exact writeByte_advance_completes s hw _ 1

/-- Settles O16: a write at the old HL, in the state with HL stepped. -/
theorem storeAThroughHlResult : Obligations.StoreAThroughHlResult := by
  intro m d s hmd hw
  refine ⟨_, exec_storeA s m, ?_⟩
  rw [storeThrough, addrR16Mem_stepped hmd]
  exact ⟨writeByte_hl _ _ _,
    writeByte_completes s _ _ (cycles := 0) (events := []) hw rfl (leaves_hl s _ 1) rfl rfl rfl rfl⟩

/-- Settles O17: a read into A at the pair's value. -/
theorem loadAThroughPairResult : Obligations.LoadAThroughPairResult := by
  intro m p s hmp hr
  refine ⟨_, exec_loadA s m, ?_⟩
  rw [loadThrough, addrR16Mem_pair hmp]
  exact readInto_completes_self s hr (by decide) rfl

/-- Settles O18: a read into A at the old HL, from the state with HL stepped. -/
theorem loadAThroughHlResult : Obligations.LoadAThroughHlResult := by
  intro m d s hmd hr
  refine ⟨_, exec_loadA s m, ?_⟩
  rw [loadThrough, addrR16Mem_stepped hmd]
  obtain ⟨hbyte, hframe⟩ :=
    readInto_completes (r := .a) (n := 1) rfl hr (by decide) (leaves_set16_hl s (s.get16 .hl + d)) rfl rfl rfl rfl rfl
  exact ⟨hbyte, readIntoA_get16_hl hr, hframe⟩

/-- Settles O19: a register written with another's value. -/
theorem copyRegisterResult : Obligations.CopyRegisterResult := by
  intro dst src s
  exact ⟨_, exec_copyReg s dst src, set8_advance_completes s (SlotReg.reg8_ne_f dst) _ 1⟩

/-- Settles O20: a read at HL, which is taken before the register, H or L too, is written. -/
theorem loadRegisterFromMemoryResult : Obligations.LoadRegisterFromMemoryResult := by
  intro dst s hr
  exact ⟨_, exec_loadReg s dst, readInto_completes_self s hr (SlotReg.reg8_ne_f dst) rfl⟩

/-- Settles O21: a write of the register at HL. -/
theorem storeRegisterToMemoryResult : Obligations.StoreRegisterToMemoryResult := by
  intro src s hw
  exact ⟨_, exec_storeReg s src, writeByte_advance_completes s hw _ 1⟩

/-- Settles O22: a register written with the immediate byte. -/
theorem loadRegisterImmediateResult : Obligations.LoadRegisterImmediateResult := by
  intro dst n s
  exact ⟨_, exec_immReg s dst n, set8_advance_completes s (SlotReg.reg8_ne_f dst) n 2⟩

/-- Settles O23: a write of the immediate byte at HL. -/
theorem storeImmediateToMemoryResult : Obligations.StoreImmediateToMemoryResult := by
  intro n s hw
  exact ⟨_, exec_ldHlMemN8 s n, writeByte_advance_completes s hw n 2⟩

/-- Settles O24: both forms are the one high-page store, at `highPage_eq_ofNat`'s address. -/
theorem highPageStoreResult : Obligations.HighPageStoreResult := by
  intro i off len s hform hw
  have hexec : exec i s = .next (storeHighPage off len s) := by
    rcases hform with ⟨rfl, rfl⟩ | ⟨rfl, rfl, rfl⟩
    · exact exec_ldhN8FromA s off
    · exact exec_ldhCFromA s
  refine ⟨_, hexec, ?_⟩
  rw [storeHighPage, highPage_eq_ofNat]
  exact writeByte_advance_completes s hw _ len

end Sys2Proof.Machine
end

section
/-! The 16-bit immediate load and PUSH (42_loads_16bit_stack.md R200, R201): what a pair write and a two-byte write leave, and the two
results assembled from them. -/
namespace Sys2Proof.Machine

/-! ## A pair written -/

section
variable {s u : State} {but : List Reg8} {sp : Word}

/-- A pair write changes no 8-bit register outside the pair. -/
theorem get8_set16_of_not_mem_pairHalves (s : State) (v : Word) {p : PairSel} {k : Reg8} (hk : k ∉ pairHalves p) :
    (s.set16 p.reg16 v).get8 k = s.get8 k := by
  cases p with
  | sp => cases k <;> rfl
  | bc =>
    cases k with
    | b | c => simp [pairHalves] at hk
    | _ => rfl
  | de =>
    cases k with
    | d | e => simp [pairHalves] at hk
    | _ => rfl
  | hl =>
    cases k with
    | h | l => simp [pairHalves] at hk
    | _ => rfl

theorem leaves_set16_pair (s : State) (p : PairSel) (v : Word) :
    Leaves s (s.set16 p.reg16 v) (pairHalves p) (if p = .sp then v else s.sp) := by
  refine ⟨fun k hk => get8_set16_of_not_mem_pairHalves s v hk, ?_, by simp, by simp, by simp, by simp⟩
  cases p <;> rfl

theorem PairSel.reg16_ne_pc (p : PairSel) : p.reg16 ≠ .pc := by cases p <;> decide

@[simp] theorem State.set16_pair_pc (s : State) (p : PairSel) (v : Word) : (s.set16 p.reg16 v).pc = s.pc := by cases p <;> rfl

/-- An idle M-cycle is within every frame. -/
theorem Leaves.tick (h : Leaves s u but sp) : Leaves s u.tick but sp := by
  obtain ⟨hregs, hsp, hopc, hpfx, hime, hinc8⟩ := h
  exact ⟨fun k hk => (u.tick_get8 k).trans (hregs k hk), hsp, hopc, hpfx, hime, hinc8⟩

theorem Leaves.setStage (h : Leaves s u but sp) (st : Stage) : Leaves s (u.setStage st) but sp := by
  obtain ⟨hregs, hsp, hopc, hpfx, hime, hinc8⟩ := h
  exact ⟨fun k hk => (u.setStage_get8 st k).trans (hregs k hk), hsp, hopc, hpfx, hime, hinc8⟩

/-! ## A two-byte write -/

/-- A write M-cycle that is answered is within every frame. -/
theorem Leaves.afterWrite (h : Leaves s u but sp) (st : Stage) (a : Word) (v : Byte) (e : BusEvent) :
    Leaves s (((u.setStage st).tick.putByte a v).log e) but sp := by
  obtain ⟨hregs, hsp, hopc, hpfx, hime, hinc8⟩ := h
  exact ⟨fun k hk => by rw [← hregs k hk]; simp, by simpa, by simpa, by simpa, by simpa, by simpa⟩

/-- Bytes stored at `a` and `a + 1` can be stored in either order: the two addresses differ, also where `a + 1` wraps. -/
theorem storedAt_adjacent_comm (m : Memory) (a : Word) (hi lo : Byte) (x : Nat) :
    (if x = (a + 1).toNat ∧ isStorage x then hi else storedAt m a lo x) =
      if x = a.toNat ∧ isStorage x then lo else storedAt m (a + 1) hi x := by
  have hne : a.toNat ≠ (a + 1).toNat := by bv_omega
  unfold storedAt
  by_cases hx : x = a.toNat
  · simp only [hx, hne, false_and, if_false]
  · simp only [hx, false_and, if_false]

/-- A two-byte write whose addresses both take their byte (R64, R134): both are stored, two M-cycles pass, two events are appended, the
high byte's last, and the rest is as the state `u` before it. -/
theorem writeWord_completes (s : State) (a w : Word) {pc : Word} {cycles : Nat} {events : List BusEvent}
    (hlo : Writable a) (hhi : Writable (a + 1)) (hm : u.mem = s.mem) (hl : Leaves s u but sp) (hpc : u.pc = pc)
    (hf : u.flt = s.flt) (hc : u.clock = s.clock + cycles) (hh : u.history = events ++ s.history) :
    (∀ x, (writeWord a w u).mem.read x =
      if x = a.toNat ∧ isStorage x then loByte w else storedAt s.mem (a + 1) (hiByte w) x) ∧
    Leaves s (writeWord a w u) but sp ∧
    Completes s (writeWord a w u) pc (cycles + 2)
      (.write (a + 1) (hiByte w) :: .write a (loByte w) :: events) := by
  rw [writeWord_ok _ _ _ hlo, writeHighByte_ok _ _ _ hhi]
  refine ⟨fun x => ?_, ((hl.afterWrite _ _ _ _).afterWrite _ _ _ _).setStage _, ?_⟩
  · rw [← storedAt_adjacent_comm]
    simp [State.putByte_read, storedAt, hm]
  · exact ⟨by simpa, rfl, by simpa, by simp [hc, Nat.add_assoc], by simp [hh]⟩

end

/-! ## The statements about the 16-bit load and PUSH -/

/-- Settles O14: the pair written and PC moved on, with no access to the bus. -/
theorem loadPairImmediateResult : Obligations.LoadPairImmediateResult := by
  intro p n s
  refine ⟨_, exec_ldPairImm s p n, ?_⟩
  rw [loadPair]
  refine ⟨?_, (leaves_set16_pair s p n).advance 3, fun x => by simp, ⟨by simp, rfl, by simp, by simp, by simp⟩⟩
  rw [State.advance_get16 _ _ _ (PairSel.reg16_ne_pc p), State.get16_set16_same _ _ _ (PairSel.reg16_ne_af p)]

/-- Settles O31: a two-byte write at SP minus two, in the state with SP dropped, PC moved on and one M-cycle passed. -/
theorem pushResult : Obligations.PushResult := by
  intro p s hlo hhi
  have habove : s.sp - 1 = s.sp - 2 + 1 := by bv_omega
  rw [habove] at hhi ⊢
  refine ⟨_, exec_push s p, ?_⟩
  rw [← loByte_eq_ofNat, ← hiByte_eq_ofNat]
  exact writeWord_completes s (s.sp - 2) (s.get16 p.reg16) (cycles := 1) (events := []) hlo hhi rfl
    ((leaves_set16_pair s .sp (s.sp - 2)).advance 1).tick rfl rfl rfl rfl

end Sys2Proof.Machine
end

section
/-! XOR and the increments (43_alu_inc.md R210 to R218): what a write of the flags leaves, what XOR and the 8-bit increment leave in the
state their operand was read in, and the results assembled from them. -/
namespace Sys2Proof.Machine

section
variable {s t u : State} {but : List Reg8} {sp : Word}

/-! ## Frames -/

theorem State.setFlags_get8 (s : State) (g : Flags) {k : Reg8} (hk : k ≠ .f) : (s.setFlags g).get8 k = s.get8 k := by
  cases k with
  | f => contradiction
  | _ => rfl

theorem Leaves.setFlags (h : Leaves s u but sp) (g : Flags) : Leaves s (u.setFlags g) (.f :: but) sp := by
  obtain ⟨hregs, hsp, hopc, hpfx, hime, hinc8⟩ := h
  refine ⟨fun k hk => ?_, hsp, hopc, hpfx, hime, hinc8⟩
  obtain ⟨hkf, hkbut⟩ := not_or.mp (mt List.mem_cons.mpr hk)
  exact (u.setFlags_get8 g hkf).trans (hregs k hkbut)

theorem Leaves.inc8 (h : Leaves s u but sp) (old : Byte) : Leaves s (u.inc8 old) (.f :: but) sp := h.setFlags _

/-- A latched fault is within every frame. -/
theorem Leaves.raise (h : Leaves s u but sp) (r : FaultRecord) : Leaves s (u.raise r) but sp := by
  obtain ⟨hregs, hsp, hopc, hpfx, hime, hinc8⟩ := h
  exact ⟨fun k hk => (u.raise_get8 r k).trans (hregs k hk), hsp, hopc, hpfx, hime, hinc8⟩

/-- A frame may name more registers than changed. -/
theorem Leaves.mono {but' : List Reg8} (h : Leaves s u but sp) (hsub : but ⊆ but') : Leaves s u but' sp := by
  obtain ⟨hregs, hsp, hopc, hpfx, hime, hinc8⟩ := h
  exact ⟨fun k hk => hregs k fun hkbut => hk (hsub hkbut), hsp, hopc, hpfx, hime, hinc8⟩

/-! ## XOR (R210) -/

/-- XOR of A with `v` in a state `u` that is `s` but for the M-cycles and bus events of reading the operand. -/
theorem xorWith_completes (v : Byte) {cycles : Nat} {events : List BusEvent} (hl : Leaves s u [] s.sp)
    (hm : u.mem = s.mem) (hpc : u.pc = s.pc) (hf : u.flt = s.flt) (hc : u.clock = s.clock + cycles)
    (hh : u.history = events ++ s.history) :
    (∀ k < 8, ((xorWith v u).get8 .a).getLsbD k = ((s.get8 .a).getLsbD k ^^ v.getLsbD k)) ∧
      ((xorWith v u).f.z = true ↔ ((xorWith v u).get8 .a).toNat = 0) ∧ (xorWith v u).f.n = false ∧
      (xorWith v u).f.h = false ∧ (xorWith v u).f.c = false ∧
      Leaves s (xorWith v u) [.a, .f] s.sp ∧ KeepsMemory s (xorWith v u) ∧
      Completes s (xorWith v u) (s.pc + 1) cycles events := by
  have hresult : (xorWith v u).get8 .a = s.get8 .a ^^^ v := by
    rw [← hl.regs .a List.not_mem_nil]
    rfl
  have hz : (xorWith v u).f.z = ((xorWith v u).get8 .a == 0) := rfl
  have hframe : Leaves s (xorWith v u) [.f, .a] s.sp := ((hl.set8 .a _).setFlags _).advance 1
  refine ⟨fun k _ => ?_, ?_, rfl, rfl, rfl, hframe.mono (by decide), fun x => ?_, ?_⟩
  · rw [hresult, BitVec.getLsbD_xor]
  · rw [hz, beq_iff_eq, BitVec.toNat_eq]
    rfl
  · simp [xorWith, hm]
  · exact ⟨congrArg (· + 1) hpc, rfl, hf, hc, hh⟩

/-! ## The 8-bit increment (R213) -/

/-- `inc8FlagsOf` is R213's rule, for both settings of INC8_FLAGS. -/
theorem incFlagsRule_of_f {old : Byte} (h : t.f = inc8FlagsOf s.inc8Flags old s.f) : incFlagsRule s t old := by
  obtain ⟨hzero, hhalf⟩ := inc8_tests old
  refine ⟨fun hznh => ?_, fun hunchanged => ?_⟩
  · rw [h, hznh]
    exact ⟨hzero, rfl, hhalf, rfl⟩
  · rw [h, hunchanged]
    rfl

/-- The state in which `INC [HL]` writes back (R215): the byte at HL read, flags and PC updated. -/
def State.incHlRead (s : State) : State :=
  (((s.setStage (.read (.read8 (s.get16 .hl)))).tick.log (.read (s.get16 .hl) (s.busByte (s.get16 .hl)))).inc8
    (s.busByte (s.get16 .hl))).advance 1

/-- With HL mapped, `INC [HL]` is the write of the incremented byte in that state. -/
theorem incMemory_of_readable (s : State) (h : Readable (s.get16 .hl)) :
    incMemory s = writeByte (s.get16 .hl) (s.busByte (s.get16 .hl) + 1) s.incHlRead := by
  rw [incMemory, readByteThen_ok s _ _ h]
  rfl

@[simp] theorem State.incHlRead_pc (s : State) : s.incHlRead.pc = s.pc + 1 := rfl

@[simp] theorem State.incHlRead_mem (s : State) : s.incHlRead.mem = s.mem := rfl

@[simp] theorem State.incHlRead_flt (s : State) : s.incHlRead.flt = s.flt := rfl

@[simp] theorem State.incHlRead_clock (s : State) : s.incHlRead.clock = s.clock + 1 := rfl

@[simp] theorem State.incHlRead_history (s : State) :
    s.incHlRead.history = .read (s.get16 .hl) (s.busByte (s.get16 .hl)) :: s.history := rfl

theorem leaves_incHlRead (s : State) : Leaves s s.incHlRead [.f] s.sp :=
  (((leaves_refl s).afterRead _ _).inc8 _).advance 1

/-- Nothing after the write-back changes the flags. -/
theorem incFlagsRule_writeByte_incHlRead (s : State) (a : Word) (v : Byte) :
    incFlagsRule s (writeByte a v s.incHlRead) (s.busByte (s.get16 .hl)) :=
  incFlagsRule_of_f (writeByte_f _ a v)

end

/-! ## The statements about XOR and the increments -/

/-- Settles O25: XOR with the register's value in the instruction's own state. -/
theorem xorRegisterResult : Obligations.XorRegisterResult := by
  intro r s
  exact ⟨_, exec_xorReg s r, xorWith_completes _ (leaves_refl s) rfl rfl rfl rfl rfl⟩

/-- Settles O26: XOR with the byte read, in the state its read M-cycle leaves. -/
theorem xorMemoryResult : Obligations.XorMemoryResult := by
  intro s hr
  refine ⟨_, exec_xorHlMem s, ?_⟩
  rw [xorMemory, readByteThen_ok s _ _ hr]
  exact xorWith_completes _ ((leaves_refl s).afterRead _ _) rfl rfl rfl rfl rfl

/-- Settles O27: the flags are set by the old value, then the register is written with its successor. -/
theorem incRegisterResult : Obligations.IncRegisterResult := by
  intro r s
  refine ⟨_, exec_incReg s r, ?_⟩
  rw [incRegister]
  refine ⟨?_, incFlagsRule_of_f (by simp), (((leaves_refl s).inc8 _).set8 r.reg8 _).advance 1, fun x => by simp,
    ⟨by simp, rfl, by simp, by simp, by simp⟩⟩
  rw [State.advance_get8, State.get8_set8_same _ _ _ (SlotReg.reg8_ne_f r), BitVec.toNat_add]
  rfl

/-- Settles O28: a write-back that is answered, in the state the read and the flags leave. -/
theorem incMemoryResult : Obligations.IncMemoryResult := by
  intro s hw
  refine ⟨_, exec_incHlMem s, ?_⟩
  rw [incMemory_of_readable s hw.1]
  obtain ⟨hmem, hframe, hdone⟩ :=
    writeByte_completes s (s.get16 .hl) (s.busByte (s.get16 .hl) + 1)
      (events := [.read (s.get16 .hl) (s.busByte (s.get16 .hl))]) hw s.incHlRead_mem (leaves_incHlRead s)
      s.incHlRead_pc s.incHlRead_flt s.incHlRead_clock s.incHlRead_history
  exact ⟨hmem, incFlagsRule_writeByte_incHlRead s _ _, hframe, hdone⟩

/-- Settles O29: the pair written with its successor, PC moved on and one M-cycle passed. -/
theorem incPairResult : Obligations.IncPairResult := by
  intro p s
  have hsp : (if p = .sp then s.get16 p.reg16 + 1 else s.sp) = if p = .sp then s.sp + 1 else s.sp := by
    cases p <;> rfl
  refine ⟨_, exec_incPair s p, ?_⟩
  rw [incPair, State.add16]
  refine ⟨?_, hsp ▸ ((leaves_set16_pair s p _).advance 1).tick, fun x => by simp,
    ⟨by simp, rfl, by simp, by simp, by simp⟩⟩
  rw [State.tick_get16, State.advance_get16 _ _ _ (PairSel.reg16_ne_pc p),
    State.get16_set16_same _ _ _ (PairSel.reg16_ne_af p), BitVec.toNat_add]
  rfl

/-- Settles O36: the boot ROM answers the read with its storage byte and refuses the write-back. -/
theorem incBootRomByteFaults : Obligations.IncBootRomByteFaults := by
  intro s hrom
  have hread : Readable (s.get16 .hl) := by simp [Readable, hrom]
  have hbyte : s.busByte (s.get16 .hl) = s.mem.read (s.get16 .hl).toNat := s.busByte_of_region _ hrom
  refine ⟨_, exec_incHlMem s, ?_⟩
  rw [← hbyte, incMemory_of_readable s hread]
  have hflags := incFlagsRule_writeByte_incHlRead s (s.get16 .hl) (s.busByte (s.get16 .hl) + 1)
  rw [writeByte_bootRom _ _ _ hrom] at hflags ⊢
  exact ⟨by simp, hflags, ((leaves_incHlRead s).setStage _).tick.raise _, fun x => by simp,
    by simp, by simp, by simp, rfl⟩

end Sys2Proof.Machine
end

section
/-! Results of the conditional relative jump (44_jumps.md): when its condition holds, where it goes and what the two branches leave. -/
namespace Sys2Proof.Machine

/-- The tested condition is the row of R112. -/
theorem Flags.test_iff_jrTaken (s : State) (cc : Cond) : s.f.test cc = true ↔ jrTaken cc s := by
  cases cc <;> simp [Flags.test, jrTaken]

/-- Adding the extended displacement adds the signed displacement, modulo 65536 (R11, R230). -/
theorem add_sext16_toNat (a : Word) (e : Byte) : ((a + sext16 e).toNat : Int) = ((a.toNat : Int) + e.toInt) % 65536 := by
  rw [sext16, BitVec.signExtend, BitVec.toNat_add, BitVec.toNat_ofInt]
  omega

theorem jumpRelative_of_taken {cc : Cond} {s : State} (h : jrTaken cc s) (e : Byte) :
    jumpRelative cc e s = (s.advance (2 + sext16 e)).tick := if_pos ((Flags.test_iff_jrTaken s cc).mpr h)

theorem jumpRelative_of_not_taken {cc : Cond} {s : State} (h : ¬ jrTaken cc s) (e : Byte) :
    jumpRelative cc e s = s.advance 2 := if_neg (mt (Flags.test_iff_jrTaken s cc).mp h)

/-- Settles O30: a taken jump advances PC by two and the displacement in one idle M-cycle, any other by two. -/
theorem jumpRelativeResult : Obligations.JumpRelativeResult := by
  intro cc e s
  by_cases h : jrTaken cc s
  case pos =>
    have htarget : ((s.pc + (2 + sext16 e)).toNat : Int) = ((s.pc.toNat : Int) + 2 + e.toInt) % 65536 := by
      rw [← BitVec.add_assoc, add_sext16_toNat, BitVec.toNat_add]
      simp
    refine ⟨_, s.pc + (2 + sext16 e), exec_jr s cc e, ?_⟩
    rw [jumpRelative_of_taken h]
    exact ⟨(leaves_advance s _).tick, fun _ => rfl, fun _ => ⟨htarget, rfl, rfl, rfl, rfl, rfl⟩, absurd h⟩
  case neg =>
    refine ⟨_, s.pc + 2, exec_jr s cc e, ?_⟩
    rw [jumpRelative_of_not_taken h]
    exact ⟨leaves_advance s 2, fun _ => rfl, (absurd · h), fun _ => ⟨BitVec.toNat_add .., rfl, rfl, rfl, rfl, rfl⟩⟩

end Sys2Proof.Machine
end

section
/-! The bit test (45_prefixed_bit.md R240, R241): what it leaves in the state its operand was read in, and the two results assembled
from it. -/
namespace Sys2Proof.Machine

section
variable {s u : State}

/-- `bitFlags` is R240's rule; only C comes from the flags before. -/
theorem bitFlagsRule_bitTest (n : BitNum) (v : Byte) (hflags : u.f = s.f) : bitFlagsRule s (bitTest n v u) n v :=
  ⟨getLsbD_bitNum n v, rfl, rfl, (bitFlags_c n v u.f).trans (congrArg Flags.c hflags)⟩

/-- The test of bit `n` of `v` in a state `u` that is `s` but for the M-cycles and bus events of reading the operand. -/
theorem bitTest_completes (n : BitNum) (v : Byte) {cycles : Nat} {events : List BusEvent} (hl : Leaves s u [] s.sp)
    (hflags : u.f = s.f) (hm : u.mem = s.mem) (hpc : u.pc = s.pc) (hf : u.flt = s.flt) (hc : u.clock = s.clock + cycles)
    (hh : u.history = events ++ s.history) :
    bitFlagsRule s (bitTest n v u) n v ∧ Leaves s (bitTest n v u) [.f] s.sp ∧ KeepsMemory s (bitTest n v u) ∧
      Completes s (bitTest n v u) (s.pc + 1) cycles events := by
  have hframe : Leaves s (bitTest n v u) [.f] s.sp := (hl.setFlags _).advance 1
  have hmem : KeepsMemory s (bitTest n v u) := fun x => congrArg (·.read x) hm
  exact ⟨bitFlagsRule_bitTest n v hflags, hframe, hmem, congrArg (· + 1) hpc, rfl, hf, hc, hh⟩

end

/-- Settles O32: the register's value is tested in the instruction's own state. -/
theorem bitRegisterResult : Obligations.BitRegisterResult := by
  intro n r s
  exact ⟨_, exec_bitReg s n r, bitTest_completes n _ (leaves_refl s) rfl rfl rfl rfl rfl rfl⟩

/-- Settles O33: the byte read at HL is tested in the state its read M-cycle leaves. -/
theorem bitMemoryResult : Obligations.BitMemoryResult := by
  intro n s hr
  refine ⟨_, exec_bitMem s n, ?_⟩
  rw [bitMemory, readByteThen_ok s _ _ hr]
  exact bitTest_completes n _ ((leaves_refl s).afterRead _ _) rfl rfl rfl rfl rfl rfl

end Sys2Proof.Machine
end

section
/-! The unprefixed unimplemented opcode (46_unimplemented_and_system.md R250): its byte is read and latched and no family takes it, so
the step and the M-cycle both end in the state of that read with the fault raised. -/
namespace Sys2Proof.Machine

section
variable {s u : State} {b : Byte}

/-- The prefix is none of the bytes R250 lists: it selects the other table (R103, R251). -/
theorem ne_prefix_of_listedUnimplemented (h : listedUnimplemented b) : b ≠ 0xCB := by
  rintro rfl
  simp [listedUnimplemented] at h

theorem familyOf_of_listedUnimplemented (h : listedUnimplemented b) : familyOf false b = none :=
  (familyOf_unprefixed_eq_none_iff b (ne_prefix_of_listedUnimplemented h)).mpr h

/-- The state after the byte `b` was read at PC and no family took it: the byte latched, the fault record naming it and its address. -/
def State.unimplementedAfterRead (s : State) (b : Byte) : State :=
  ((s.tick.log (.read s.pc b)).latch b false).raise (.unimplementedOpcode b false s.pc)

@[simp] theorem State.unimplementedAfterRead_flt (s : State) (b : Byte) :
    (s.unimplementedAfterRead b).flt = some (.unimplementedOpcode b false s.pc) := rfl

@[simp] theorem State.unimplementedAfterRead_get8 (s : State) (b : Byte) (n : Reg8) :
    (s.unimplementedAfterRead b).get8 n = s.get8 n := by
  simp [State.unimplementedAfterRead]

theorem step_of_unimplemented (hready : s.Ready) (hread : readCycle s.pc s = .ok b u) (hlisted : listedUnimplemented b) :
    step s = .next (s.unimplementedAfterRead b) := by
  obtain ⟨hflt, hstage, hpoll⟩ := hready
  obtain ⟨-, -, rfl⟩ := readCycle_inv _ _ hread
  have hfetch : fetchInstr s = .raised (s.unimplementedAfterRead b) := by
    simp only [fetchInstr, hread, if_neg (ne_prefix_of_listedUnimplemented hlisted), fetchFamily, State.latch_pfx,
      State.latch_opc, familyOf_of_listedUnimplemented hlisted]
    rfl
  rw [step_of_ready s hflt hstage hpoll, hfetch]

theorem cycle_of_unimplemented (hready : s.Ready) (hread : readCycle s.pc s = .ok b u) (hlisted : listedUnimplemented b) :
    cycle s = .next (s.unimplementedAfterRead b) := by
  obtain ⟨-, -, rfl⟩ := readCycle_inv _ _ hread
  rw [cycle_of_ready hready hread, if_neg (ne_prefix_of_listedUnimplemented hlisted)]
  simp only [decodePhase, State.latch_pfx, State.latch_opc, familyOf_of_listedUnimplemented hlisted]
  rfl

end

/-- Settles O39: step and M-cycle end in the one state, whose latched fault stops every later one. -/
theorem unimplementedOpcodeIsLatched : Obligations.UnimplementedOpcodeIsLatched := by
  intro s s1 b hready hrun hlisted
  obtain ⟨_, _, u, hbytes, hread, -⟩ := readRun_succ_inv _ _ hrun
  cases hbytes
  have hlatched : (s.unimplementedAfterRead b).flt ≠ none := by simp
  have ⟨_, hstage, _⟩ := hready
  exact ⟨s.unimplementedAfterRead b, step_of_unimplemented hready hread hlisted, cycle_of_unimplemented hready hread hlisted,
    rfl, rfl, rfl, s.unimplementedAfterRead_get8 b, rfl, rfl, hstage, fun _ => rfl, rfl, rfl, rfl, rfl,
    step_of_latched _ hlatched, cycle_of_latched _ hlatched⟩

end Sys2Proof.Machine
end

section
/-! Data accesses that meet an address that takes none (60_exceptions.md R262, R264): the M-cycle of the access latches its fault and
everything the instruction did before it is kept. -/
namespace Sys2Proof.Machine

/-! ## Reads -/

/-- Settles O34: every form is a read at its address, from the instruction's own state or that with HL stepped. -/
theorem dataReadFaultIsLatched : Obligations.DataReadFaultIsLatched := by
  intro s
  have latches (a : Word) (k : Byte → State → State) (ha : regionOf a = none) :
      Leaves s (readByteThen a k s) [] s.sp ∧
        Latches s (readByteThen a k s) (.unmappedAddress a false s.pc) (.read (.read8 a)) s.pc :=
    readByteThen_latches s a k ha rfl (leaves_refl s) rfl rfl rfl
  refine ⟨fun m p hmp hp => ⟨_, exec_loadA s m, ?_⟩, fun hhl => ⟨fun m d hmd => ⟨_, exec_loadA s m, ?_⟩, fun i hi => ?_⟩⟩
  · rw [loadThrough, addrR16Mem_pair hmp]
    exact latches (s.get16 p) _ hp
  · rw [loadThrough, addrR16Mem_stepped hmd]
    obtain ⟨hframe, hlatches⟩ :=
      readByteThen_latches s (u := s.set16 .hl (s.get16 .hl + d)) (s.get16 .hl) (fun v s' => (s'.set8 .a v).advance 1) hhl
        rfl (leaves_set16_hl s _) rfl rfl rfl
    exact ⟨hframe, by rw [readByteThen_unmapped _ _ _ hhl]; rfl, hlatches⟩
  · rcases hi with rfl | rfl | ⟨r, rfl⟩ | ⟨n, rfl⟩
    · exact ⟨_, exec_xorHlMem s, latches _ xorWith hhl⟩
    · exact ⟨_, exec_incHlMem s, latches _ _ hhl⟩
    · exact ⟨_, exec_loadReg s r, latches _ _ hhl⟩
    · exact ⟨_, exec_bitMem s n, latches _ (bitTest n) hhl⟩

/-! ## Writes -/

section
variable {s u : State} {a : Word} {r : FaultRecord}

/-- The two kinds of address that take no write, with what they raise (R71, R77). -/
theorem writeFault_eq_some {pc : Word} (h : writeFault a pc = some r) :
    (regionOf a = none ∧ r = .unmappedAddress a true pc) ∨ (regionOf a = some .bootRom ∧ r = .bootRomWrite a pc) := by
  unfold writeFault at h
  split at h <;> cases h
  · next ha => exact .inl ⟨ha, rfl⟩
  · next ha => exact .inr ⟨ha, rfl⟩

theorem writeByte_refused (h : writeFault a u.pc = some r) (v : Byte) :
    writeByte a v u = (u.setStage (.write (.write8 a v))).tick.raise r := by
  rcases writeFault_eq_some h with ⟨ha, rfl⟩ | ⟨ha, rfl⟩
  · exact writeByte_unmapped u a v ha
  · exact writeByte_bootRom u a v ha

theorem writeHighByte_refused (h : writeFault a u.pc = some r) (v : Byte) :
    writeHighByte a v u = (u.setStage (.write (.write16Hi a v))).tick.raise r := by
  rcases writeFault_eq_some h with ⟨ha, rfl⟩ | ⟨ha, rfl⟩
  · exact writeHighByte_unmapped u a v ha
  · exact writeHighByte_bootRom u a v ha

theorem writeWord_refused (h : writeFault a u.pc = some r) (w : Word) :
    writeWord a w u = (u.setStage (.write (.write16 a w))).tick.raise r := by
  rcases writeFault_eq_some h with ⟨ha, rfl⟩ | ⟨ha, rfl⟩
  · exact writeWord_unmapped u a w ha
  · exact writeWord_bootRom u a w ha

/-- The high byte refused: the low byte is written. -/
theorem writeWord_high_refused (hlo : Writable a) (hhi : writeFault (a + 1) u.pc = some r) (w : Word) :
    writeWord a w u =
      (((((u.setStage (.write (.write16 a w))).tick.putByte a (loByte w)).log (.write a (loByte w))).setStage
        (.write (.write16Hi (a + 1) (hiByte w)))).tick.raise r) := by
  rw [writeWord_ok u a w hlo]
  exact writeHighByte_refused (by simpa using hhi) (hiByte w)

/-- A refused write with PC moved on before it and nothing else. -/
theorem writeByte_advance_latches (s : State) {n : Word} (h : writeFault a (s.pc + n) = some r) (v : Byte) :
    Leaves s (writeByte a v (s.advance n)) [] s.sp ∧
      Latches s (writeByte a v (s.advance n)) r (.write (.write8 a v)) (s.pc + n) := by
  rw [writeByte_refused (u := s.advance n) h v]
  exact raised_write_latches s a v r rfl (leaves_advance s n) rfl rfl rfl

end

/-- Settles O35: every form is a refused write at its address, PC moved on before it, and HL stepped by `[HL+]` and `[HL-]`. -/
theorem dataWriteFaultIsLatched : Obligations.DataWriteFaultIsLatched := by
  intro s r
  refine ⟨fun m p hmp h => ⟨_, exec_storeA s m, ?_⟩, fun m d hmd h => ⟨_, exec_storeA s m, ?_⟩,
    fun src h => ⟨_, exec_storeReg s src, writeByte_advance_latches s h _⟩,
    fun n h => ⟨_, exec_ldHlMemN8 s n, writeByte_advance_latches s h n⟩,
    fun n h => ⟨_, exec_ldhN8FromA s n, ?_⟩, fun h => ⟨_, exec_ldhCFromA s, ?_⟩⟩
  · rw [storeThrough, addrR16Mem_pair hmp]
    exact writeByte_advance_latches s h _
  · rw [storeThrough, addrR16Mem_stepped hmd]
    obtain ⟨hframe, hlatches⟩ :=
      raised_write_latches s (u := (s.set16 .hl (s.get16 .hl + d)).advance 1) (s.get16 .hl) (s.get8 .a) r rfl
        ((leaves_set16_hl s _).advance 1) rfl rfl rfl
    rw [writeByte_refused (u := (s.set16 .hl (s.get16 .hl + d)).advance 1) h]
    exact ⟨hframe, rfl, hlatches⟩
  · rw [storeHighPage, highPage_eq_ofNat]
    exact writeByte_advance_latches s h _
  · rw [storeHighPage, highPage_eq_ofNat]
    exact writeByte_advance_latches s h _

/-! ## PUSH -/

/-- The state in which PUSH writes (R201): SP dropped, PC moved on and the idle M-cycle passed. -/
def State.pushReady (s : State) : State := ((s.set16 .sp (s.sp - 2)).advance 1).tick

@[simp] theorem State.pushReady_pc (s : State) : s.pushReady.pc = s.pc + 1 := rfl

@[simp] theorem State.pushReady_mem (s : State) : s.pushReady.mem = s.mem := rfl

@[simp] theorem State.pushReady_clock (s : State) : s.pushReady.clock = s.clock + 1 := rfl

@[simp] theorem State.pushReady_history (s : State) : s.pushReady.history = s.history := rfl

theorem leaves_pushReady (s : State) : Leaves s s.pushReady [] (s.sp - 2) :=
  ((leaves_set16_pair s .sp (s.sp - 2)).advance 1).tick

theorem pushPair_eq (p : StackSel) (s : State) : pushPair p s = writeWord (s.sp - 2) (s.get16 p.reg16) s.pushReady := rfl

/-- Settles O37: a refused low byte stops the two-byte write at once, a refused high byte after the low one is stored. -/
theorem pushFaultIsLatched : Obligations.PushFaultIsLatched := by
  intro p s r
  refine ⟨fun hlo => ⟨_, exec_push s p, ?_⟩, fun hlo hhi => ⟨_, exec_push s p, ?_⟩⟩
  · rw [pushPair_eq, writeWord_refused (u := s.pushReady) hlo]
    exact ⟨((leaves_pushReady s).setStage _).tick.raise r, fun x => by simp, rfl, by simp, by simp, by simp, rfl⟩
  · have habove : s.sp - 1 = s.sp - 2 + 1 := by bv_omega
    rw [habove] at hhi ⊢
    rw [← loByte_eq_ofNat, ← hiByte_eq_ofNat, pushPair_eq, writeWord_high_refused (u := s.pushReady) hlo hhi]
    exact ⟨(((leaves_pushReady s).afterWrite _ _ _ _).setStage _).tick.raise r, rfl,
      fun x => by simp [State.putByte_read, storedAt], by simp, by simp, by simp, rfl⟩

end Sys2Proof.Machine
end

section
/-! Construction and the reset input (70_reset_and_hazards.md R292, R293), and the sticky fault latch that reset alone clears
(10_state.md R45). -/
namespace Sys2Proof.Machine

/-! ## Construction (R292) -/

theorem BootImage.exists_of_length {bytes : List Byte} (h : bytes.length = 256) :
    ∃ image, BootImage.ofBytes? bytes = some image ∧ image.toList = bytes := by
  obtain ⟨image, himage⟩ := Option.ne_none_iff_exists'.mp (mt (BootImage.ofBytes_eq_none_iff bytes).mp (not_not.mpr h))
  exact ⟨image, himage, BootImage.toList_ofBytes bytes image himage⟩

/-- Settles O58: bytes from outside make an image exactly when they are 256, and a state exactly when they make an image. -/
theorem constructionTakes256Bytes : Obligations.ConstructionTakes256Bytes := by
  refine ⟨fun bytes mode hlen => ?_, fun bytes mode hlen => ?_, State.reset_eq_construct, fun x hx => ?_⟩
  · obtain ⟨image, hof, hbytes⟩ := BootImage.exists_of_length hlen
    exact ⟨image, hbytes, by rw [State.construct?, hof, Option.map_some]⟩
  · rw [State.construct?, (BootImage.ofBytes_eq_none_iff bytes).mpr hlen, Option.map_none]
  · exact Vector.getElem_replicate hx

/-! ## Reset (R293) -/

theorem drive_reset (stepEn : Bool) (s : State) : drive true stepEn s = .next s.applyReset := rfl

/-- The boot image a machine holds. -/
def State.bootImage (s : State) : BootImage := Vector.ofFn fun x => s.mem.read x

theorem State.bootImage_getElem (s : State) {x : Nat} (h : x < 256) : s.bootImage[x] = s.mem.read x := Vector.getElem_ofFn h

theorem State.construct_mem (image : BootImage) (mode : Inc8Flags) :
    (State.construct image mode).mem = Memory.store [] 0 image.toList := rfl

/-- The boot ROM kept and everything else dropped is the memory construction lays the held image in. -/
theorem State.bootRom_eq_construct_mem (s : State) (h : s.mem.wf) :
    s.mem.filter (fun c => c.1 < 0x100) = (State.construct s.bootImage s.inc8Flags).mem := by
  refine Memory.eq_of_read_eq _ _ (Memory.filter_wf _ _ h) (State.construct_wf _ _) fun x => ?_
  rw [State.read_construct]
  by_cases hx : x < 256
  · rw [dif_pos hx, State.bootImage_getElem s hx]
    exact Memory.read_filter _ _ _ fun c _ hc => by simpa [hc] using hx
  · rw [dif_neg hx]
    refine Memory.read_eq_unlisted _ _ fun c hc hcx => hx ?_
    simpa [hcx] using (List.mem_filter.mp hc).2

theorem State.applyReset_eq_construct (s : State) (h : s.mem.wf) :
    s.applyReset = { State.construct s.bootImage s.inc8Flags with clock := s.clock } := by
  rw [State.applyReset, State.bootRom_eq_construct_mem s h, State.construct_mem, State.construct]

/-- Settles O59: reset constructs anew with the boot image memory holds. -/
theorem resetRestoresTheResetState : Obligations.ResetRestoresTheResetState := by
  intro s ⟨hwf, _, _⟩
  exact ⟨s.applyReset, s.bootImage, drive_reset false s, drive_reset true s, fun x hx => s.bootImage_getElem hx,
    s.applyReset_eq_construct hwf⟩

/-! ## The fault latch (R45) -/

section
variable {s : State} (h : s.flt ≠ none)
include h

theorem run_of_latched (k : Nat) : Host.Core.run core k s = .next s := by
  induction k with
  | zero => rfl
  | succ k ih =>
    have hstep : core.step s = .next s := step_of_latched s h
    simp only [Host.Core.run, hstep, ih]

theorem runCycles_of_latched (k : Nat) : runCycles k s = .next s := by
  induction k with
  | zero => rfl
  | succ k ih => rw [runCycles_succ k (cycle_of_latched s h), ih]

end

/-- Settles O41: reset constructs a state with nothing latched, and with a fault latched no step and no M-cycle changes the state. -/
theorem latchedFaultIsSticky : Obligations.LatchedFaultIsSticky := by
  refine ⟨rfl, fun s r => s.raise_flt r, fun s t en ht => ?_, fun s k h => ?_⟩
  · rw [drive_reset] at ht
    cases ht
    rfl
  · exact ⟨run_of_latched h k, runCycles_of_latched h k, cycle_of_latched s h⟩

end Sys2Proof.Machine
end

section
/-! Faults while an instruction's own bytes are fetched: a byte at an unmapped address (60_exceptions.md R262, first four rows), and a
prefixed opcode byte that no family takes (46_unimplemented_and_system.md R251). -/
namespace Sys2Proof.Machine

variable {s u : State} {a : Word} {b : Byte} {f : Family}

/-! ## Runs of one and of two reads -/

theorem readRun_one_inv (h : readRun 1 a s = .ok [b] u) : readCycle a s = .ok b u := by
  obtain ⟨_, _, v, hbytes, hread, hend⟩ := readRun_succ_inv _ _ h
  cases hbytes
  obtain ⟨-, rfl⟩ := readRun_zero_inv _ _ hend
  exact hread

theorem readRun_two_inv {c : Byte} (h : readRun 2 a s = .ok [b, c] u) :
    ∃ v, readCycle a s = .ok b v ∧ readCycle (a + 1) v = .ok c u := by
  obtain ⟨_, _, v, hbytes, hread, hrest⟩ := readRun_succ_inv _ _ h
  cases hbytes
  exact ⟨v, hread, readRun_one_inv hrest⟩

/-- A read asks neither latch. -/
theorem readCycle_latch {c : Byte} (h : readCycle a s = .ok b u) (p : Bool) :
    readCycle a (s.latch c p) = .ok b (u.latch c p) := by
  obtain ⟨-, -, rfl⟩ := readCycle_inv _ _ h
  exact readCycle_congr s a (s.latch c p) h rfl rfl

/-! ## The fetch, byte by byte -/

/-- The state in which the second byte of a prefixed instruction is fetched (R136), `u` being that after the read of 0xCB. -/
def State.afterEscape (u : State) : State := ((u.latch 0xCB false).movePc 1).setStage .fetchPrefixed

@[simp] theorem State.afterEscape_pc (u : State) : u.afterEscape.pc = u.pc + 1 := rfl

@[simp] theorem State.afterEscape_stage (u : State) : u.afterEscape.stage = .fetchPrefixed := rfl

@[simp] theorem State.afterEscape_sp (u : State) : u.afterEscape.sp = u.sp := rfl

@[simp] theorem State.afterEscape_flt (u : State) : u.afterEscape.flt = u.flt := rfl

@[simp] theorem State.afterEscape_ime (u : State) : u.afterEscape.ime = u.ime := rfl

@[simp] theorem State.afterEscape_mem (u : State) : u.afterEscape.mem = u.mem := rfl

@[simp] theorem State.afterEscape_history (u : State) : u.afterEscape.history = u.history := rfl

@[simp] theorem State.afterEscape_inc8Flags (u : State) : u.afterEscape.inc8Flags = u.inc8Flags := rfl

@[simp] theorem State.afterEscape_clock (u : State) : u.afterEscape.clock = u.clock := rfl

@[simp] theorem State.afterEscape_get8 (u : State) (n : Reg8) : u.afterEscape.get8 n = u.get8 n := by
  simp [State.afterEscape]

theorem fetchInstr_of_escape (hread : readCycle s.pc s = .ok 0xCB u) : fetchInstr s = fetchPrefixed u.afterEscape := by
  simp only [fetchInstr, hread, if_true, State.afterEscape]

theorem fetchInstr_of_family (hread : readCycle s.pc s = .ok b u) (hb : b ≠ 0xCB) (hf : familyOf false b = some f) :
    fetchInstr s = fetchImmediate f (u.latch b false) := by
  simp only [fetchInstr, hread, if_neg hb, fetchFamily, State.latch_pfx, State.latch_opc, hf]

theorem fetchInstr_unmapped (h : regionOf s.pc = none) :
    fetchInstr s = .raised (s.tick.raise (.unmappedAddress s.pc false s.pc)) := by
  simp only [fetchInstr, readCycle_unmapped s _ h]

theorem fetchPrefixed_unmapped (h : regionOf s.pc = none) :
    fetchPrefixed s = .raised (s.tick.raise (.unmappedAddress s.pc false s.pc)) := by
  simp only [fetchPrefixed, readCycle_unmapped s _ h]

/-- The first immediate byte unmapped. -/
theorem fetchImmediate_unmapped (hn : 1 ≤ f.immBytes) (h : regionOf (s.pc + 1) = none) :
    fetchImmediate f s =
      .raised ((s.setStage (.read (if f.immBytes = 1 then .read8 (s.pc + 1) else .read16 (s.pc + 1)))).tick.raise
        (.unmappedAddress (s.pc + 1) false s.pc)) := by
  unfold fetchImmediate
  rcases immBytes_cases f with h0 | h1 | h2
  · omega
  · simp only [h1, readCycle_unmapped _ _ h]
    rfl
  · simp only [h2, readCycle_unmapped _ _ h]
    rfl

/-- The second immediate byte unmapped, after the first was read. -/
theorem fetchImmediate_high_unmapped {lo : Byte} (hn : f.immBytes = 2) (hlo : readCycle (s.pc + 1) s = .ok lo u)
    (h : regionOf (u.pc + 1 + 1) = none) :
    fetchImmediate f s =
      .raised ((u.setStage (.read (.read16Hi (u.pc + 1 + 1) lo))).tick.raise
        (.unmappedAddress (u.pc + 1 + 1) false u.pc)) := by
  obtain ⟨-, -, rfl⟩ := readCycle_inv _ _ hlo
  replace h : regionOf (s.pc + 1 + 1) = none := h
  simp only [fetchImmediate, hn, readCycle_congr s (s.pc + 1) (s.setStage (.read (.read16 (s.pc + 1)))) hlo rfl rfl,
    readCycle_unmapped _ _ h]
  rfl

theorem step_of_fetch_raised (hready : s.Ready) (h : fetchInstr s = .raised u) : step s = .next u := by
  obtain ⟨hflt, hstage, hpoll⟩ := hready
  rw [step_of_ready s hflt hstage hpoll, h]

/-! ## Unmapped addresses (R262) -/

theorem leaves_afterEscape (u : State) : Leaves (u.latch 0xCB false) u.afterEscape [] u.sp :=
  ⟨fun k _ => by simp, rfl, rfl, rfl, rfl, rfl⟩

/-- The bytes read before leave the registers as they were. -/
theorem readRun_pc_sp {n : Nat} {bytes : List Byte} (h : readRun n a s = .ok bytes u) : u.pc = s.pc ∧ u.sp = s.sp := by
  obtain ⟨rfl, -⟩ := readRun_inv _ _ h
  exact ⟨rfl, rfl⟩

/-- A fault raised in the read of an immediate byte, the opcode byte being latched in `s`. -/
theorem latch_raise_latches (s : State) (p : Bool) (st : Stage) (r : FaultRecord) :
    Leaves (s.latch b p) (((s.latch b p).setStage st).tick.raise r) [] s.sp ∧
      Latches s (((s.latch b p).setStage st).tick.raise r) r st s.pc :=
  ⟨((leaves_refl _).setStage _).tick.raise _, rfl, rfl, rfl, rfl, rfl, fun _ => rfl⟩

/-- Settles O38: the fetch goes as far as the byte that is unmapped and raises there. -/
theorem fetchFaultIsLatched : Obligations.FetchFaultIsLatched := by
  intro s hready
  have ⟨_, hstage, _⟩ := hready
  refine ⟨fun h => ?_, fun s1 hrun h => ?_, fun s1 b f hrun hb hf hn h => ?_, fun s1 b lo f hrun hb hf hn h => ?_⟩
  · exact ⟨_, step_of_fetch_raised hready (fetchInstr_unmapped h), (leaves_refl s).tick.raise _,
      rfl, hstage, by simp, rfl, by simp, fun x => by simp⟩
  · have hread := readRun_one_inv hrun
    obtain ⟨hpc, hsp⟩ := readRun_pc_sp hrun
    rw [← hpc] at h ⊢
    rw [← hsp]
    have hfetch := (fetchInstr_of_escape hread).trans (fetchPrefixed_unmapped h)
    exact ⟨_, step_of_fetch_raised hready hfetch, (leaves_afterEscape s1).tick.raise _,
      rfl, rfl, by simp, by simp, by simp, fun x => by simp⟩
  · have hread := readRun_one_inv hrun
    obtain ⟨hpc, hsp⟩ := readRun_pc_sp hrun
    rw [← hpc] at h ⊢
    rw [← hsp]
    have hfetch := (fetchInstr_of_family hread hb hf).trans (fetchImmediate_unmapped hn h)
    exact ⟨_, step_of_fetch_raised hready hfetch, latch_raise_latches s1 false _ _⟩
  · obtain ⟨v, hread, hlo⟩ := readRun_two_inv hrun
    obtain ⟨hpc, hsp⟩ := readRun_pc_sp hrun
    have hvpc : v.pc = s.pc := by obtain ⟨-, -, rfl⟩ := readCycle_inv _ _ hread; rfl
    have hnext : s.pc + 2 = s1.pc + 1 + 1 := by rw [hpc]; bv_omega
    rw [hnext] at h ⊢
    rw [← hpc, ← hsp]
    have hfetch := (fetchInstr_of_family hread hb hf).trans
      (fetchImmediate_high_unmapped hn (readCycle_latch (hvpc ▸ hlo) false) h)
    exact ⟨_, step_of_fetch_raised hready hfetch, latch_raise_latches s1 false _ _⟩

/-! ## Unimplemented opcodes of the second table (R251) -/

/-- The second byte is read in the state the escape leaves as it was read in the run. -/
theorem readCycle_afterEscape {v : State} (hescape : readCycle s.pc s = .ok 0xCB u) (hread : readCycle (s.pc + 1) u = .ok b v) :
    readCycle u.afterEscape.pc u.afterEscape = .ok b (u.afterEscape.tick.log (.read (s.pc + 1) b)) := by
  have hpc : u.afterEscape.pc = s.pc + 1 := by
    obtain ⟨-, -, rfl⟩ := readCycle_inv _ _ hescape
    rfl
  rw [hpc]
  exact readCycle_congr u (s.pc + 1) u.afterEscape hread rfl rfl

section
variable (hf : familyOf true b = none)
include hf

/-- The second byte, read where no family takes it: the byte latched and the fault raised. -/
theorem fetchPrefixed_of_unimplemented (hread : readCycle s.pc s = .ok b u) :
    fetchPrefixed s = .raised ((u.latch b true).raise (.unimplementedOpcode b true u.pc)) := by
  simp only [fetchPrefixed, hread, fetchFamily, State.latch_pfx, State.latch_opc, hf]
  rfl

theorem cycle_of_prefixed_unimplemented (hflt : s.flt = none) (hstage : s.stage = .fetchPrefixed)
    (hread : readCycle s.pc s = .ok b u) :
    cycle s = .next ((u.latch b true).raise (.unimplementedOpcode b true u.pc)) := by
  have hbus : busRead s.tick.pc s.tick = .ok b u := hread
  simp only [cycle, hflt, hstage, Option.isSome_none, Bool.false_eq_true, if_false, fetchPrefixedCycle, hbus, decodePhase,
    State.latch_pfx, State.latch_opc, hf]
  rfl

end

/-- Settles O40: step and second M-cycle end in the one state, whose latched fault stops every later one. -/
theorem prefixedUnimplementedOpcodeIsLatched : Obligations.PrefixedUnimplementedOpcodeIsLatched := by
  intro s s1 b hready hrun hb
  have hf := (familyOf_prefixed_eq_none_iff b).mpr hb
  have ⟨hflt, _, _⟩ := hready
  obtain ⟨u, hescape, hread⟩ := readRun_two_inv hrun
  have hopcode := readCycle_afterEscape hescape hread
  have hfirst : cycle s = .next u.afterEscape := by rw [cycle_of_ready hready hescape, if_pos rfl]; rfl
  have hstep := step_of_fetch_raised hready
    ((fetchInstr_of_escape hescape).trans (fetchPrefixed_of_unimplemented hf hopcode))
  obtain ⟨-, -, rfl⟩ := readCycle_inv _ _ hescape
  have hsecond := cycle_of_prefixed_unimplemented hf (by simpa using hflt) (by simp) hopcode
  exact ⟨_, _, hfirst, rfl, rfl, by simp, by simp, hsecond, hstep, by simp, rfl, rfl, fun n => by simp, by simp, by simp,
    by simp, fun x => by simp, by simp, by simp, by simp, by simp, step_of_latched _ (by simp),
    cycle_of_latched _ (by simp)⟩

end Sys2Proof.Machine
end

section
/-! IME and the M-cycle count matter to the interrupt-enable poll alone (60_exceptions.md R270, R271; 70_reset_and_hazards.md R297): with
both changed, every operation, and every M-cycle and step whose poll answers the same, does what it did. -/
namespace Sys2Proof.Machine

/-- IME changed by `e` and the M-cycle count moved on by `k`. -/
def State.shift (e : Bool → Bool) (k : Nat) (s : State) : State := { s with ime := e s.ime, clock := s.clock + k }

/-- The state of a result changed by `g`, its value kept. -/
def Res.mapState {α : Type} (g : State → State) : Res α → Res α
  | .ok v s => .ok v (g s)
  | .raised s => .raised (g s)

variable (e : Bool → Bool) (k : Nat) (s : State)

/-! ## Updates and reads of the state -/

@[simp] theorem State.shift_pc : (s.shift e k).pc = s.pc := rfl

@[simp] theorem State.shift_stage : (s.shift e k).stage = s.stage := rfl

@[simp] theorem State.shift_opc : (s.shift e k).opc = s.opc := rfl

@[simp] theorem State.shift_pfx : (s.shift e k).pfx = s.pfx := rfl

@[simp] theorem State.shift_flt : (s.shift e k).flt = s.flt := rfl

@[simp] theorem State.shift_get8 (n : Reg8) : (s.shift e k).get8 n = s.get8 n := by cases n <;> rfl

@[simp] theorem State.shift_get16 (p : Reg16) : (s.shift e k).get16 p = s.get16 p := by cases p <;> rfl

theorem State.shift_tick : (s.shift e k).tick = s.tick.shift e k := by
  apply State.eq_of_fields <;> simp [State.shift, Nat.add_right_comm]

theorem State.shift_set8 (n : Reg8) (v : Byte) : (s.shift e k).set8 n v = (s.set8 n v).shift e k := by cases n <;> rfl

theorem State.shift_set16 (p : Reg16) (v : Word) : (s.shift e k).set16 p v = (s.set16 p v).shift e k := by cases p <;> rfl

theorem State.shift_putByte (a : Word) (v : Byte) : (s.shift e k).putByte a v = (s.putByte a v).shift e k := by
  unfold State.putByte
  split
  · split <;> rfl
  · rfl

/-! ## Bus accesses and descriptor steps -/

theorem busRead_shift (a : Word) : busRead a (s.shift e k) = (busRead a s).mapState (State.shift e k) := by
  rcases busRead_cases s a with ⟨ha, hr⟩ | ⟨ha, hr⟩ <;> rw [hr]
  · exact busRead_ok _ _ ha
  · exact busRead_unmapped _ _ ha

theorem busWrite_shift (a : Word) (v : Byte) : busWrite a v (s.shift e k) = (busWrite a v s).mapState (State.shift e k) := by
  rcases busWrite_cases s a v with ⟨ha, hw⟩ | ⟨ha, hw⟩ | ⟨ha, hw⟩ <;> rw [hw]
  · rw [busWrite_ok _ _ _ ha, State.shift_putByte]
    rfl
  · exact busWrite_unmapped _ _ _ ha
  · exact busWrite_bootRom _ _ _ ha

theorem srcStep_shift (src : Src) : srcStep src (s.shift e k) = (srcStep src s).mapState (State.shift e k) := by
  cases src with
  | read8 a | read16 a | read16Hi a lo =>
    simp only [srcStep, busRead_shift]
    cases busRead a s <;> rfl
  | none | val8 v | val16 v => rfl

theorem dstStep_shift (dst : Dst) : dstStep dst (s.shift e k) = (dstStep dst s).mapState (State.shift e k) := by
  cases dst with
  | write8 a v | write16Hi a v =>
    simp only [dstStep, busWrite_shift]
    cases busWrite a v s <;> rfl
  | write16 a v =>
    simp only [dstStep, busWrite_shift]
    cases busWrite a (loByte v) s <;> rfl
  | none | done => rfl

/-! ## Decode and execute -/

theorem addrR16Mem_shift (p : MemSel) :
    addrR16Mem p (s.shift e k) = ((addrR16Mem p s).1, (addrR16Mem p s).2.shift e k) := by cases p <;> rfl

theorem slotSrc_shift (y : Slot) : slotSrc y (s.shift e k) = slotSrc y s := by cases y <;> simp [slotSrc]

theorem slotDst_shift (y : Slot) (v : Byte) : slotDst y v (s.shift e k) = (slotDst y v s).shift e k := by
  cases y with
  | reg r => rw [slotDst, State.shift_set8]; rfl
  | mem => rfl

theorem sourceOf_shift (f : Family) : sourceOf f (s.shift e k) = ((sourceOf f s).1, (sourceOf f s).2.shift e k) := by
  cases f <;> simp [sourceOf, addrR16Mem_shift, slotSrc_shift]

theorem executeFamily_shift (f : Family) (v : SrcValue) :
    executeFamily f v (s.shift e k) = (executeFamily f v s).map (State.shift e k) := by
  cases f <;> cases v <;> simp only [executeFamily, Option.map_some, Option.map_none]
  case ldPairImm.word p v => rw [State.shift_set16]; rfl
  case ldMemA.byte p v => rw [addrR16Mem_shift]; rfl
  case ldSlotSlot.byte y z v => rw [← slotDst_shift]; rfl
  case ldSlotImm.byte y v => rw [← slotDst_shift]; rfl
  case incSlot.byte y v => rw [← slotDst_shift]; rfl
  case incPair.unit p => cases p <;> rfl
  case jr.byte cc v => rw [apply_ite (State.shift e k)]; rfl
  all_goals rfl

theorem executePhase_shift (v : SrcValue) : executePhase v (s.shift e k) = mapNext (State.shift e k) (executePhase v s) := by
  simp only [executePhase, State.shift_pfx, State.shift_opc, executeFamily_shift]
  cases familyOf s.pfx s.opc with
  | none => rfl
  | some f => cases hf : executeFamily f v s <;> simp only [hf] <;> rfl

theorem decodePhase_shift : decodePhase (s.shift e k) = mapNext (State.shift e k) (decodePhase s) := by
  simp only [decodePhase, State.shift_pfx, State.shift_opc, sourceOf_shift]
  cases familyOf s.pfx s.opc with
  | none => rfl
  | some f =>
    cases hv : (sourceOf f s).1.value? with
    | none => simp only [hv]; rfl
    | some v => simp only [hv]; exact executePhase_shift ..

/-! ## One M-cycle of each stage -/

theorem fetchCycle_shift : fetchCycle (s.shift e k) = mapNext (State.shift e k) (fetchCycle s) := by
  simp only [fetchCycle, State.shift_pc, busRead_shift]
  cases busRead s.pc s with
  | raised u => rfl
  | ok b u =>
    simp only [Res.mapState]
    split
    · rfl
    · exact decodePhase_shift e k (u.latch b false)

theorem fetchPrefixedCycle_shift : fetchPrefixedCycle (s.shift e k) = mapNext (State.shift e k) (fetchPrefixedCycle s) := by
  simp only [fetchPrefixedCycle, State.shift_pc, busRead_shift]
  cases busRead s.pc s with
  | raised u => rfl
  | ok b u => exact decodePhase_shift e k (u.latch b true)

theorem readStageCycle_shift (src : Src) :
    readStageCycle src (s.shift e k) = mapNext (State.shift e k) (readStageCycle src s) := by
  simp only [readStageCycle, srcStep_shift]
  cases srcStep src s with
  | raised u => rfl
  | ok src' u =>
    simp only [Res.mapState]
    cases src'.value? with
    | none => rfl
    | some v => exact executePhase_shift e k u v

theorem writeStageCycle_shift (dst : Dst) :
    writeStageCycle dst (s.shift e k) = mapNext (State.shift e k) (writeStageCycle dst s) := by
  simp only [writeStageCycle, dstStep_shift]
  cases dstStep dst s <;> rfl

/-- Only a `Fetch` M-cycle asks the poll. -/
theorem cycle_shift (hp : s.stage = .fetch → (s.shift e k).polled = s.polled) :
    cycle (s.shift e k) = mapNext (State.shift e k) (cycle s) := by
  simp only [cycle, State.shift_flt, State.shift_stage, State.shift_pc, State.shift_tick]
  split
  · rfl
  · cases hs : s.stage with
    | fetch =>
      simp only [hp hs]
      split
      · rfl
      · exact fetchCycle_shift ..
    | fetchPrefixed => exact fetchPrefixedCycle_shift ..
    | read src => exact readStageCycle_shift ..
    | wait dst => rfl
    | write dst => exact writeStageCycle_shift ..

/-! ## Steps -/

/-- What is left of an instruction meets no poll. -/
theorem finishInstr_shift (n : Nat) : finishInstr n (s.shift e k) = mapNext (State.shift e k) (finishInstr n s) := by
  induction n generalizing s with
  | zero => rfl
  | succ n ih =>
    cases hb : s.atBoundary with
    | true =>
      rw [finishInstr_of_atBoundary _ hb, finishInstr_of_atBoundary (s := s.shift e k) _ hb]
      rfl
    | false =>
      obtain ⟨hs, -⟩ := not_atBoundary_iff.mp hb
      rw [finishInstr_of_not_atBoundary n hb, finishInstr_of_not_atBoundary (s := s.shift e k) n hb,
        cycle_shift e k s fun h => absurd h hs]
      cases cycle s with
      | next u => exact ih u
      | fault r => rfl
      | refused r => rfl

theorem step_shift (hp : s.stage = .fetch → (s.shift e k).polled = s.polled) :
    step (s.shift e k) = mapNext (State.shift e k) (step s) := by
  by_cases hf : s.flt = none
  · by_cases hs : s.stage = .fetch
    · rw [step_eq_cycle_then_finish s hf hs, step_eq_cycle_then_finish (s.shift e k) hf hs, cycle_shift e k s hp]
      cases cycle s with
      | next u => exact finishInstr_shift e k u 5
      | fault r => rfl
      | refused r => rfl
    · have hb : s.atBoundary = false := not_atBoundary_iff.mpr ⟨hs, hf⟩
      rw [step_of_not_atBoundary hb, step_of_not_atBoundary (s := s.shift e k) hb]
      exact finishInstr_shift e k s 5
  · rw [step_of_latched s hf, step_of_latched (s.shift e k) hf]
    rfl

/-! ## The poll (R270) -/

variable {s}

theorem polled_of_ime_clear (h : s.ime = false) : s.polled = false := by rw [State.polled, h, Bool.false_and]

theorem polled_of_no_request (h : Config.intReq s.history s.clock = false) : s.polled = false := by
  rw [State.polled, h, Bool.and_false]

theorem cycle_of_polled (hf : s.flt = none) (hs : s.stage = .fetch) (hp : s.polled = true) :
    cycle s = .next (s.tick.raise (.interruptDispatchUnimplemented s.pc)) := by
  simp [cycle, hf, hs, hp]

/-- Settles O42: a request latches the fault before any access, and where the poll is not made, or finds no request, IME is read by
nothing. -/
theorem interruptPollOnlyAtFetch : Obligations.InterruptPollOnlyAtFetch := by
  refine ⟨fun s hf hs hi => ?_, fun s b h => ?_⟩
  · cases hreq : Config.intReq s.history s.clock with
    | false => exact .inl rfl
    | true =>
      have hp : s.polled = true := by rw [State.polled, hi, hreq, Bool.and_self]
      exact .inr ⟨_, step_of_polled s hf hs hp, cycle_of_polled hf hs hp, (leaves_refl s).tick.raise _,
        rfl, hs, rfl, rfl, rfl, fun _ => rfl⟩
  · have hp : s.stage = .fetch → (s.shift (fun _ => b) 0).polled = s.polled := fun hs => by
      have hreq := h.resolve_left (not_not.mpr hs)
      rw [polled_of_no_request hreq, polled_of_no_request (s := s.shift (fun _ => b) 0) hreq]
    exact ⟨cycle_shift (fun _ => b) 0 s hp, step_shift (fun _ => b) 0 s hp⟩

/-- Settles O56: with IME clear the poll does not look at the count, and nothing else does. -/
theorem resultsDoNotDependOnTheClock : Obligations.ResultsDoNotDependOnTheClock := by
  intro s k hi
  refine step_shift id k s fun _ => ?_
  rw [polled_of_ime_clear hi, polled_of_ime_clear (s := s.shift id k) hi]

end Sys2Proof.Machine
end
